-- ==== Sys2Proof/Word.lean ====
section
/-! DEFINITION. The word types of the block (R12 of 00_scope.md): a byte, a 32-bit word (a packed
RGBA pixel, a parameter, a host argument), and the four bytes of a word. -/

namespace Sys2Proof

/-- One byte of the input stream or of an array (R12, R43). -/
abbrev Byte := BitVec 8

/-- A 32-bit quantity: a packed RGBA pixel or color, a parameter register, a host argument (R12). -/
abbrev Word := BitVec 32

/-- Byte `j` of a word, `w[8j+7 : 8j]` (R46); byte 0 is R, byte 3 is A. -/
def Word.byte (w : Word) (j : Nat) : Byte := w.extractLsb' (8 * j) 8

/-- The word whose bytes 0..3 are the given ones, byte 0 least significant (R46). -/
def Word.ofBytes (b0 b1 b2 b3 : Byte) : Word := b3 ++ b2 ++ b1 ++ b0

/-- The four bytes of a word in the order they lie in memory (R46). -/
def Word.bytes (w : Word) : List Byte := [w.byte 0, w.byte 1, w.byte 2, w.byte 3]

end Sys2Proof
end

