-- ==== Sys2Proof/Syntax.lean ====
section
/-! DEFINITION. The instructions of the block: one constructor per mnemonic of the opcode table, the nine
classes of the byte stream (R59 of 30_encoding.md) and the six host commands (R70). -/

namespace Sys2Proof

/-- The three address spaces of the buffer port (R43); space code 3 is no space (R70). -/
inductive Space where
  | inbuf    -- space code 0, bytes
  | palette  -- space code 1, 32-bit words
  | rowbuf   -- space code 2, 32-bit words
deriving DecidableEq, Repr

/-- The instructions. The byte classes carry the one field R58 gives them; the host commands carry
the operands of R70. -/
inductive Instr where
  /-- `0x30..0x39`, digit value `d` (R61). -/
  | digit (d : BitVec 4)
  /-- `;` (R59). -/
  | semi
  /-- `!` (R59). -/
  | bang
  /-- `#` (R59). -/
  | hash
  /-- `"` (R59). -/
  | quote
  /-- `$` (R59). -/
  | dollar
  /-- `-` (R59). -/
  | dash
  /-- `0x3F..0x7E`, bit `i` of `code6` selects row `i` (R60). -/
  | sixel (code6 : BitVec 6)
  /-- Every other code (R59). -/
  | ignored
  /-- INIT (R148). -/
  | init (sixelColor fillColor paletteLength truncate : Word)
  /-- DECODE (R150); both operands are signed 32-bit values. -/
  | decode (start endArg : Word)
  /-- CURRENT_WIDTH (R147). -/
  | currentWidth
  /-- ANSWER (R154). -/
  | answer (value : Word)
  /-- HOST_READ (R44). -/
  | hostRead (space : Space) (index : Word)
  /-- HOST_WRITE (R44); for INBUF the value is 8 bits wide. -/
  | hostWrite (space : Space) (index value : Word)
deriving DecidableEq, Repr

end Sys2Proof
end

