-- ==== Sys2Proof/Config.lean ====
section
/-! DEFINITION. What an implementation fixes: the build parameters (R5 to R8 of 00_scope.md), the numeric
format of the HLS converter (R10), the base addresses (R50), and the free values of elements the spec
leaves unspecified (R45). A constant without a body has no value any proof can see. -/

namespace Sys2Proof

/-- The build-time parameters of the block (R5 to R8). -/
structure Build where
  maxWidth    : Nat  -- MAX_WIDTH (R5)
  paletteSize : Nat  -- PALETTE_SIZE (R6)
  paramSize   : Nat  -- PARAM_SIZE (R7)
  chunkSize   : Nat  -- CHUNK_SIZE (R8)
deriving DecidableEq, Repr

/-- The default values of the build parameters (R5 to R8). -/
def Build.default : Build := ⟨4096, 256, 8, 4096⟩

/-- GUARD, the slots before column 0 (R9). -/
def Build.guard : Nat := 4

/-- CLEAR_CHUNK, the step in which M1 clears (R9). -/
def Build.clearChunk : Nat := 128

/-- ROWCAP, the pixel slots of one row buffer (R11). -/
def Build.rowCap (b : Build) : Nat := b.maxWidth + 4

/-- ROWSTRIDE, the distance in pixels between row bases (R11). -/
def Build.rowStride (b : Build) : Nat := b.maxWidth + 4

/-- The number of elements of an address space (R43). -/
def Build.count (b : Build) : Space → Nat
  | .inbuf => b.chunkSize
  | .palette => b.paletteSize
  | .rowbuf => 6 * b.rowStride

/-- The bytes of one element of an address space (R43). -/
def Space.elemBytes : Space → Nat
  | .inbuf => 1
  | .palette => 4
  | .rowbuf => 4

/-- The builds the spec admits: `MAX_WIDTH` a positive multiple of 128 (R5), `1 ≤ PALETTE_SIZE ≤ 256`
(R6), `PARAM_SIZE ≥ 5` (R7), a non-empty input buffer. The last two bounds are DEDUCED (log 2): a 32-bit
element index reaches every row slot (R70) and a non-negative `i32` every input index (R150). Safe. -/
abbrev Build.legal (b : Build) : Prop :=
  (b.maxWidth % 128 = 0 ∧ 128 ≤ b.maxWidth) ∧ (1 ≤ b.paletteSize ∧ b.paletteSize ≤ 256) ∧
  5 ≤ b.paramSize ∧ 1 ≤ b.chunkSize ∧ 6 * (b.maxWidth + 4) ≤ 2 ^ 32 ∧ b.chunkSize ≤ 2 ^ 31

/-- The numeric formats `HLS_FP` ranges over (R10). -/
inductive HlsFormat where
  | binary32
  | binary64
  | exact
deriving DecidableEq, Repr, Inhabited

/-- `HLS_FP`, left open by the spec (R10, D4). Free: nothing is assumed of it (log 4, safe). -/
opaque Config.hlsFp : HlsFormat

/-- `INBUF_BASE`, left open by the spec (R50, D19). Free (log 5, safe). -/
opaque Config.inbufBase : Nat

/-- `PALETTE_BASE`, left open by the spec (R50, D19). Free (log 5, safe). -/
opaque Config.paletteBase : Nat

/-- `ROWBUF_BASE`, left open by the spec (R50, D19). Free (log 5, safe). -/
opaque Config.rowbufBase : Nat

/-- What a byte of an array that nothing has written since power-on reads as: an unspecified value (R45,
U9), by space and byte offset. Free (log 1, safe). -/
opaque Config.powerOnByte : Space → Nat → Byte

/-- What a host read of a guard slot returns: an unspecified value at all times (R45, U8), by ROWBUF index
and the guard epoch of the state. Free (log 12, safe). -/
opaque Config.guardWord : Nat → Nat → Word

end Sys2Proof
end

