-- ==== Sys2Proof/Machine/Float.lean ====
section
/-! DEFINITION. The numeric formats of `color_converter_hls` (R10 of 00_scope.md): exact rationals, and the two
IEEE 754 formats as rationals rounded after every operation to nearest even. -/

namespace Sys2Proof.Machine

/-- A rational number, `num / den` with `den` positive; not reduced. -/
structure Ratio where
  num : Int
  den : Nat
deriving DecidableEq, Repr

/-- An integer as a rational (`fp(x)` of R74: exact in every format). -/
def Ratio.ofNat (n : Nat) : Ratio := ⟨n, 1⟩

def Ratio.add (x y : Ratio) : Ratio := ⟨x.num * y.den + y.num * x.den, x.den * y.den⟩

def Ratio.sub (x y : Ratio) : Ratio := ⟨x.num * y.den - y.num * x.den, x.den * y.den⟩

def Ratio.mul (x y : Ratio) : Ratio := ⟨x.num * y.num, x.den * y.den⟩

/-- Division by a positive rational. -/
def Ratio.div (x y : Ratio) : Ratio := ⟨x.num * y.den, x.den * y.num.toNat⟩

/-- Exact comparison `x < y` (R74: comparisons are exact). -/
def Ratio.lt (x y : Ratio) : Bool := decide (x.num * y.den < y.num * x.den)

/-- The floor of a non-negative rational (R78). -/
def Ratio.floor (x : Ratio) : Nat := (x.num / x.den).toNat

/-- `n / d` rounded to an integer, ties to even. -/
def roundHalfEven (n d : Nat) : Nat :=
  let q := n / d
  let r := n % d
  if 2 * r < d then q
  else if d < 2 * r then q + 1
  else if q % 2 = 0 then q else q + 1

/-- The exponent `k` with `2^k ≤ n/d < 2^(k+1)`, for positive `n` and `d`. -/
def floorLog2 (n d : Nat) : Int :=
  let l : Int := (n.log2 : Int) - (d.log2 : Int)
  if d * 2 ^ l.toNat ≤ n * 2 ^ (-l).toNat then l else l - 1

/-- Round to nearest even with `p` bits of precision and least normal exponent `emin` (IEEE 754 binary
formats; below `emin` the spacing is that of the subnormals). No value of the converter overflows (log 17). -/
def Ratio.roundTo (p : Nat) (emin : Int) (x : Ratio) : Ratio :=
  if x.num = 0 then ⟨0, 1⟩
  else
    let n := x.num.natAbs
    let ulp : Int := max (floorLog2 n x.den) emin - ((p : Int) - 1)
    let m := roundHalfEven (n * 2 ^ (-ulp).toNat) (x.den * 2 ^ ulp.toNat)
    ⟨x.num.sign * (m * 2 ^ ulp.toNat : Nat), 2 ^ (-ulp).toNat⟩

/-- What a format does to an exact result (R10): binary32 has 24 bits of precision and least normal exponent
-126, binary64 has 53 and -1022, `exact` keeps it. -/
def roundIn (f : HlsFormat) (x : Ratio) : Ratio :=
  match f with
  | .binary32 => x.roundTo 24 (-126)
  | .binary64 => x.roundTo 53 (-1022)
  | .exact => x

/-- `fp_add` of R74. -/
def fpAdd (f : HlsFormat) (x y : Ratio) : Ratio := roundIn f (x.add y)

/-- `fp_sub` of R74. -/
def fpSub (f : HlsFormat) (x y : Ratio) : Ratio := roundIn f (x.sub y)

/-- `fp_mul` of R74. -/
def fpMul (f : HlsFormat) (x y : Ratio) : Ratio := roundIn f (x.mul y)

/-- `fp_div` of R74; every divisor of the converter is a positive constant (R79). -/
def fpDiv (f : HlsFormat) (x y : Ratio) : Ratio := roundIn f (x.div y)

end Sys2Proof.Machine
end

