-- ==== Sys2Proof/Machine/Color.lean ====
section
/-! DEFINITION. The two color converters (40_color_converters.md): pure functions of their three operands. -/

namespace Sys2Proof.Machine

/-- The packed word with the given channel bytes and alpha `0xFF` (R72, R79). -/
def packOpaque (r g b : Byte) : Word := 0xFF#8 ++ b ++ g ++ r

/-- `chan`, a percentage to a channel byte value (R71). -/
def chan (c : Nat) : Nat := (c * 256 - c + 50) / 100

/-- `normalize_rgb` (R72). -/
def normalizeRgb (r g b : Nat) : Word :=
  packOpaque (BitVec.ofNat 8 (chan r)) (BitVec.ofNat 8 (chan g)) (BitVec.ofNat 8 (chan b))

/-- The lightness terms `t1` and `t2` (R75). -/
def hlsTerms (f : HlsFormat) (l s : Ratio) : Ratio × Ratio :=
  let one := Ratio.ofNat 1
  let t1 :=
    if l.lt ⟨1, 2⟩ then fpMul f l (fpAdd f one s)
    else fpAdd f (fpMul f l (fpSub f one s)) s
  (t1, fpSub f (fpMul f (Ratio.ofNat 2) l) t1)

/-- The wrap of the hue argument into `[0, 1]` (the first two lines of R76, from general knowledge; log 18). -/
def hueWrap (f : HlsFormat) (c : Ratio) : Ratio :=
  let c1 := if c.lt (Ratio.ofNat 0) then fpAdd f c (Ratio.ofNat 1) else c
  if (Ratio.ofNat 1).lt c1 then fpSub f c1 (Ratio.ofNat 1) else c1

/-- The rounding of a channel fraction to its byte (R78). -/
def channelByte (f : HlsFormat) (v : Ratio) : Byte :=
  BitVec.ofNat 8 (fpAdd f (fpMul f v (Ratio.ofNat 255)) ⟨1, 2⟩).floor

/-- `h2c`, the hue-to-channel helper with the final rounding to a byte (R76, R78). -/
def hueToChannel (f : HlsFormat) (t1 t2 c : Ratio) : Byte :=
  let c := hueWrap f c
  let c6 := fpMul f c (Ratio.ofNat 6)
  let d := fpSub f t1 t2
  let v :=
    if c6.lt (Ratio.ofNat 1) then fpAdd f t2 (fpMul f (fpMul f d (Ratio.ofNat 6)) c)
    else if (fpMul f c (Ratio.ofNat 2)).lt (Ratio.ofNat 1) then t1
    else if (fpMul f c (Ratio.ofNat 3)).lt (Ratio.ofNat 2) then
      fpAdd f t2 (fpMul f d (fpSub f (Ratio.ofNat 4) c6))
    else t2
  channelByte f v

/-- A percentage as a fraction, `L` and `S` of R74. -/
def percentFraction (f : HlsFormat) (c : Nat) : Ratio := fpDiv f (Ratio.ofNat c) (Ratio.ofNat 100)

/-- The hue rotated by 240 degrees as a fraction of the circle, `H` of R74. -/
def hueFraction (f : HlsFormat) (h : Nat) : Ratio := fpDiv f (Ratio.ofNat ((h + 240) % 360)) (Ratio.ofNat 360)

/-- The three channels of the lightness terms at a hue, packed (R77, R79). -/
def hlsChannels (f : HlsFormat) (t : Ratio × Ratio) (hue : Ratio) : Word :=
  let third := fpDiv f (Ratio.ofNat 1) (Ratio.ofNat 3)
  packOpaque (hueToChannel f t.1 t.2 (fpAdd f hue third)) (hueToChannel f t.1 t.2 hue)
    (hueToChannel f t.1 t.2 (fpSub f hue third))

/-- `normalize_hls` in a numeric format (R73 to R79). -/
def normalizeHls (f : HlsFormat) (h l s : Nat) : Word :=
  if s = 0 then normalizeRgb l l l
  else hlsChannels f (hlsTerms f (percentFraction f l) (percentFraction f s)) (hueFraction f h)

/-- `normalize_hls` in the format of this implementation, `HLS_FP` (R10). Where the three formats agree the
common value is given without asking which one `HLS_FP` is, so that it can be evaluated; the value is
`normalizeHls Config.hlsFp` in every case (Laws: `hlsColor_eq`). -/
def hlsColor (h l s : Nat) : Word :=
  let x := normalizeHls .exact h l s
  if normalizeHls .binary32 h l s = x ∧ normalizeHls .binary64 h l s = x then x
  else normalizeHls Config.hlsFp h l s

end Sys2Proof.Machine
end

