-- ==== Sys2Proof/WellFormed.lean ====
section
/-! DEFINITION. Which terms of `Instr` stand for an instruction: the checks on the operand ranges that
the constructors' types do not make. -/

namespace Sys2Proof

/-- A digit is 0..9 (R61); an INBUF write carries an 8-bit value (R44). Every other operand may be
any value of its type. -/
def Instr.wellFormed : Instr → Bool
  | .digit d => decide (d.toNat ≤ 9)
  | .semi => true
  | .bang => true
  | .hash => true
  | .quote => true
  | .dollar => true
  | .dash => true
  | .sixel _ => true
  | .ignored => true
  | .init _ _ _ _ => true
  | .decode _ _ => true
  | .currentWidth => true
  | .answer _ => true
  | .hostRead _ _ => true
  | .hostWrite .inbuf _ v => decide (v.toNat < 256)
  | .hostWrite .palette _ _ => true
  | .hostWrite .rowbuf _ _ => true

end Sys2Proof
end

