-- ==== Sys2Proof/Decode.lean ====
section
/-! DEFINITION. Decoding and encoding. A byte of the stream is one instruction (R57 to R61 of
30_encoding.md) and every byte decodes (R66); a word of the host command port is one transaction (R70), and
an unknown opcode or space code is refused by name. -/

namespace Sys2Proof

/-- A host transaction as it stands on the command port: opcode in bits 3..0, then the operands of R70 in
the table's order, each in its own bits with nothing between them. DESIGN CHOICE (log 7, safe): the
spec gives the opcode field and the operands, not their bit positions. -/
abbrev TxnWord := BitVec 132

/-- The words of an instruction: one byte of the stream, or one word of the command port. -/
inductive Encoding where
  | byte (b : Byte)
  | command (w : TxnWord)
deriving DecidableEq, Repr

/-- Why a word of the command port is no transaction (R70). -/
inductive DecodeError where
  | unknownOpcode (opcode : BitVec 4)  -- an opcode other than 0x1..0x6
  | unknownSpace                       -- space code 3
deriving DecidableEq, Repr

/-- The class of a 7-bit code and its field (R59 to R61, R64). -/
def decodeCode (code : BitVec 7) : Instr :=
  if 0x30 ≤ code.toNat ∧ code.toNat ≤ 0x39 then .digit (BitVec.ofNat 4 (code.toNat - 0x30))
  else if code.toNat = 0x3B then .semi
  else if code.toNat = 0x21 then .bang
  else if code.toNat = 0x23 then .hash
  else if code.toNat = 0x22 then .quote
  else if code.toNat = 0x24 then .dollar
  else if code.toNat = 0x2D then .dash
  else if 0x3F ≤ code.toNat ∧ code.toNat ≤ 0x7E then .sixel (BitVec.ofNat 6 (code.toNat - 63))
  else .ignored

/-- The instruction of an input byte: its low seven bits decide, bit 7 is ignored (R57). -/
def decodeByte (b : Byte) : Instr := decodeCode (b.extractLsb' 0 7)

/-- The space a 2-bit space code names (R70); code 3 names none. -/
def decodeSpace (code : BitVec 2) : Option Space :=
  if code = 0 then some .inbuf
  else if code = 1 then some .palette
  else if code = 2 then some .rowbuf
  else none

/-- The transaction on the command port (R70). -/
def decodeCommand (w : TxnWord) : Except DecodeError Instr :=
  let opcode := w.extractLsb' 0 4
  if opcode = 1 then
    .ok (.init (w.extractLsb' 4 32) (w.extractLsb' 36 32) (w.extractLsb' 68 32) (w.extractLsb' 100 32))
  else if opcode = 2 then .ok (.decode (w.extractLsb' 4 32) (w.extractLsb' 36 32))
  else if opcode = 3 then .ok .currentWidth
  else if opcode = 4 then .ok (.answer (w.extractLsb' 4 32))
  else if opcode = 5 then
    match decodeSpace (w.extractLsb' 4 2) with
    | some sp => .ok (.hostRead sp (w.extractLsb' 6 32))
    | none => .error .unknownSpace
  else if opcode = 6 then
    match decodeSpace (w.extractLsb' 4 2) with
    | some .inbuf => .ok (.hostWrite .inbuf (w.extractLsb' 6 32) ((w.extractLsb' 38 8).setWidth 32))
    | some sp => .ok (.hostWrite sp (w.extractLsb' 6 32) (w.extractLsb' 38 32))
    | none => .error .unknownSpace
  else .error (.unknownOpcode opcode)

/-- The instruction the words of an encoding stand for. Total; only a command word can be refused. -/
def decode : Encoding → Except DecodeError Instr
  | .byte b => .ok (decodeByte b)
  | .command w => decodeCommand w

/-- The 2-bit code of a space (R70). -/
def encodeSpace : Space → BitVec 2
  | .inbuf => 0
  | .palette => 1
  | .rowbuf => 2

/-- The words of an instruction (R59, R70); bit 7 of a byte is written 0 and the bits above a
transaction's operands are 0. IGNORED has many codes and is written as `0x00`. -/
def encode : Instr → Encoding
  | .digit d => .byte (0x30 + d.setWidth 8)
  | .semi => .byte 0x3B
  | .bang => .byte 0x21
  | .hash => .byte 0x23
  | .quote => .byte 0x22
  | .dollar => .byte 0x24
  | .dash => .byte 0x2D
  | .sixel code6 => .byte (0x3F + code6.setWidth 8)
  | .ignored => .byte 0x00
  | .init c f p t => .command (t ++ p ++ f ++ c ++ 1#4)
  | .decode a e => .command ((e ++ a ++ 2#4).setWidth 132)
  | .currentWidth => .command 3
  | .answer v => .command ((v ++ 4#4).setWidth 132)
  | .hostRead sp i => .command ((i ++ encodeSpace sp ++ 5#4).setWidth 132)
  | .hostWrite .inbuf i v => .command ((v.extractLsb' 0 8 ++ i ++ encodeSpace .inbuf ++ 6#4).setWidth 132)
  | .hostWrite sp i v => .command ((v ++ i ++ encodeSpace sp ++ 6#4).setWidth 132)

/-- Whether a word of the opcode table's numbering is read as a transaction of the command port and not as
a byte of the stream. The table gives both kinds of row 8 bits; a word of 8 bits or fewer whose value
is one of the six opcodes is taken as the transaction with zero operands. DESIGN CHOICE (log 8, safe):
as stream bytes 0x01..0x06 are IGNORED, and `decodeByte` says so. -/
def isCommandWord (nbits w : Nat) : Bool :=
  decide (nbits ≤ 4) || decide (8 < nbits) || (decide (1 ≤ w) && decide (w ≤ 6))

/-- The encoding whose bits the opcode table numbers `w`. -/
def tableEncoding (nbits w : Nat) : Encoding :=
  if isCommandWord nbits w then .command (BitVec.ofNat 132 w) else .byte (BitVec.ofNat 8 w)

/-- The instruction the decoder reads from an instruction of the opcode table's numbering. -/
def decodeTableWord (nbits w : Nat) : Option Instr :=
  match decode (tableEncoding nbits w) with
  | .ok i => some i
  | .error _ => none

end Sys2Proof
end

