-- ==== Sys2Proof/Machine/State.lean ====
section
/-! DEFINITION. The state of the block (10_state.md), as plain data, with its value after power-on; and the
reasons a step can stop. -/

namespace Sys2Proof.Machine

/-- `state`, the parser state (R16). -/
inductive ParserState where
  | data
  | compression
  | color
  | attr
deriving DecidableEq, Repr

/-- `mode`, the decode mode (R25). -/
inductive Mode where
  | undecided
  | m1
  | m2
deriving DecidableEq, Repr

/-- `level`, the stream level (R26). -/
inductive Level where
  | undecided
  | l1
  | l2
deriving DecidableEq, Repr

/-- `phase`, the sequencing state (R39). -/
inductive Phase where
  | idle      -- no DECODE in flight
  | run       -- bytes being processed
  | waitMode  -- the MODE callback is raised and unanswered
  | waitBand  -- the BAND callback is raised and unanswered
deriving DecidableEq, Repr

/-- The host-contract faults, codes 1..7 (R167). -/
inductive FaultCode where
  | badCommand
  | notInited
  | busy
  | noCallback
  | accessInFlight
  | badRange
  | badIndex
deriving DecidableEq, Repr

/-- A refused transaction with its operands (R167): a transaction, or a word of the command port that is none. -/
inductive Transaction where
  | known (i : Instr)
  | unknown (w : TxnWord)
deriving DecidableEq, Repr

/-- What is recorded of a host-contract fault: the code and the refused transaction (R167). -/
structure FaultRecord where
  code : FaultCode
  txn  : Transaction
deriving DecidableEq, Repr

/-- When a pending host transaction reaches the command port. DESIGN CHOICE (log 6, safe): a synchronous host
moves only while no byte is being processed; any other host is `afterBytes n`, which lets the block process
`n` more bytes first if it is running. -/
inductive Arrival where
  | synchronous
  | afterBytes (n : Nat)
deriving DecidableEq, Repr

/-- A host transaction waiting at the command port. -/
structure Request where
  arrival : Arrival
  word    : TxnWord
deriving DecidableEq, Repr

/-- The two callbacks (R153); `CallbackKind.code` is their encoding (R70). -/
inductive CallbackKind where
  | band
  | mode
deriving DecidableEq, Repr

/-- What the block sends to the host: the three events (R162), and the results of CURRENT_WIDTH (R147) and
HOST_READ (R44). -/
inductive Signal where
  | callback (kind : CallbackKind) (arg : Word)  -- BAND with the band width, MODE with the mode code
  | done                    -- the completion of a DECODE
  | width (w : Word)        -- the result of CURRENT_WIDTH
  | readByte (v : Byte)     -- the result of HOST_READ of INBUF
  | readWord (v : Word)     -- the result of HOST_READ of PALETTE or ROWBUF
deriving DecidableEq, Repr

/-- An array of the block: the bytes written since power-on, by byte offset in its space, offsets strictly
rising. An unlisted offset has no written byte (log 1). -/
abbrev Mem := List Host.Cell

/-- The state of the block. Field comments give the spec's name and rule. -/
structure State where
  build         : Build          -- MAX_WIDTH, PALETTE_SIZE, PARAM_SIZE, CHUNK_SIZE (R5 to R8), constant
  parser        : ParserState    -- state (R16)
  params        : List Word      -- params[0..PARAM_SIZE-1] (R17)
  pLength       : Nat            -- p_length (R19)
  cursor        : Nat            -- cursor (R20)
  color         : Word           -- color (R22)
  height        : Word           -- height (R23)
  rNum          : Word           -- r_num (R24)
  rDenom        : Word           -- r_denom (R24)
  rWidth        : Word           -- r_width (R24)
  rHeight       : Word           -- r_height (R24)
  mode          : Mode           -- mode (R25)
  level         : Level          -- level (R26)
  truncate      : Bool           -- truncate (R27)
  abort         : Bool           -- abort (R28)
  paletteLength : Nat            -- palette_length (R29)
  palette       : Mem            -- palette[0..PALETTE_SIZE-1] (R30)
  rowbuf        : Mem            -- row buffers p0..p5 (R31)
  fillColor     : Word           -- fill_color (R32)
  width         : Nat            -- width (R33)
  realWidth     : Nat            -- real_width (R34)
  clearedWidth  : Nat            -- cleared_width (R35)
  inbuf         : Mem            -- INBUF (R36)
  pos           : Nat            -- pos (R37)
  endPos        : Nat            -- end (R38)
  phase         : Phase          -- phase (R39)
  inited        : Bool           -- inited (R40)
  fault         : List FaultRecord  -- fault (R41), a set: no record twice
  port          : List Request   -- the model's own: host transactions not yet taken, oldest first (log 6)
  out           : List Signal    -- the model's own: what was sent to the host, newest first (log 10)
  guardEpoch    : Nat            -- the model's own: the counter of the guard slots' free value (log 12)
deriving DecidableEq, Repr

/-- The state after power-on (R173): `inited = 0`, `phase = IDLE`, `fault` empty, nothing written in any
array, the default build. The spec leaves every other register unspecified; the values here are a DESIGN
CHOICE (log 3, unsafe). -/
def State.reset : State where
  build := Build.default
  parser := .data
  params := List.replicate 8 0
  pLength := 1
  cursor := 4
  color := 0
  height := 0
  rNum := 0
  rDenom := 0
  rWidth := 0
  rHeight := 0
  mode := .undecided
  level := .undecided
  truncate := false
  abort := false
  paletteLength := 1
  palette := []
  rowbuf := []
  fillColor := 0
  width := 0
  realWidth := 4
  clearedWidth := 4
  inbuf := []
  pos := 0
  endPos := 0
  phase := .idle
  inited := false
  fault := []
  port := []
  out := []
  guardEpoch := 0

/-- Why the machine stops. Neither is reached from a state of the invariant (Safety.lean); both are safe,
since the spec gives the block no behaviour there. -/
inductive Fault where
  /-- Raised by a byte or an ANSWER in a combination of `mode` and `state` or `phase` that R16 and R25 say
  never occurs and no rule covers (log 13). Safe. -/
  | noRule
  /-- Raised where the block would access an element outside its array: `INBUF[pos]` with
  `pos ≥ CHUNK_SIZE`, a palette index with `palette_length` outside `1..PALETTE_SIZE`, a row slot at or past
  ROWCAP (log 14). Safe. -/
  | noSuchElement
deriving DecidableEq, Repr

/-- Why an instruction is refused. -/
inductive Refusal where
  /-- An instruction the model gives no meaning; raised by no arm of `exec`. Safe. -/
  | notModelled (mnemonic : String)
deriving DecidableEq, Repr

end Sys2Proof.Machine
end

