-- ==== Sys2Proof/Machine/Memory.lean ====
section
/-! DEFINITION. The arrays as canonical lists of written bytes (R43, R45, R46 of 20_memory.md): reading one
byte, writing a run of bytes, and the canonical form. -/

namespace Sys2Proof.Machine

/-- The byte last written at an offset, if one was written since power-on (R45). -/
def Mem.read? : Mem → Nat → Option Byte
  | [], _ => none
  | c :: m, a => if c.1 = a then some c.2 else Mem.read? m a

/-- The cells of consecutive bytes from offset `a` up, in front of a list. -/
def Mem.run : Nat → List Byte → Mem → Mem
  | _, [], m => m
  | a, b :: bs, m => (a, b) :: Mem.run (a + 1) bs m

/-- Leave out the first cells of a list as long as their offsets lie in `a..e-1`. -/
def Mem.dropRun (a e : Nat) : Mem → Mem
  | [] => []
  | c :: m => bif Nat.ble a c.1 && Nat.blt c.1 e then Mem.dropRun a e m else c :: m

/-- Write consecutive bytes at `a`, `a+1`, ...; every other offset keeps what it holds. -/
def Mem.write : Mem → Nat → List Byte → Mem
  | [], a, bs => Mem.run a bs []
  | c :: m, a, bs =>
    bif Nat.blt c.1 a then c :: Mem.write m a bs
    else Mem.run a bs (Mem.dropRun a (a + bs.length) (c :: m))

/-- The canonical form: offsets strictly rising. A listed offset has a written byte and an unlisted one has
none, so no entry equals what an unlisted offset reads as. -/
def Mem.wf : Mem → Bool
  | [] => true
  | [_] => true
  | c :: d :: m => decide (c.1 < d.1) && Mem.wf (d :: m)

/-- Every listed offset lies below `n`. -/
def Mem.below (m : Mem) (n : Nat) : Bool := m.all (fun c => decide (c.1 < n))

/-- The bytes of `n` copies of a word, one after the other (R46). -/
def repeatBytes : Nat → Word → List Byte
  | 0, _ => []
  | n + 1, w => w.bytes ++ repeatBytes n w

end Sys2Proof.Machine
end

