-- ==== Sys2Proof/Machine/Flags.lean ====
section
/-! DEFINITION. The block has no flags register (10_state.md section 2). Its nearest equivalents are `state`,
`mode`, `level`, `truncate` and `abort`; here stand their encodings, the callback kinds and the fault codes. -/

namespace Sys2Proof.Machine

/-- The encoding of `state` (R16). -/
def ParserState.code : ParserState → BitVec 2
  | .data => 0
  | .compression => 1
  | .color => 2
  | .attr => 3

/-- The encoding of `mode` (R25), which is the argument of the MODE callback (R145). -/
def Mode.code : Mode → BitVec 2
  | .undecided => 0
  | .m1 => 1
  | .m2 => 2

/-- The encoding of `level` (R26). -/
def Level.code : Level → BitVec 2
  | .undecided => 0
  | .l1 => 1
  | .l2 => 2

/-- The kind code of a callback (R70, R153, R162). -/
def CallbackKind.code : CallbackKind → Nat
  | .band => 1
  | .mode => 2

/-- The phase in which a callback of each kind is outstanding (R39, R153). -/
def CallbackKind.waitPhase : CallbackKind → Phase
  | .band => .waitBand
  | .mode => .waitMode

/-- The code of a host-contract fault (R167). -/
def FaultCode.code : FaultCode → Nat
  | .badCommand => 1
  | .notInited => 2
  | .busy => 3
  | .noCallback => 4
  | .accessInFlight => 5
  | .badRange => 6
  | .badIndex => 7

/-- How INIT reads its `truncate` argument, and how an answer is read: any non-zero value is true (R27,
R144). -/
def nonZero (v : Word) : Bool := decide (v ≠ 0)

end Sys2Proof.Machine
end

