-- ==== Sys2Proof/Machine/Operands.lean ====
section
/-! DEFINITION. Operand assembly: the parameter vector (R17 to R19 of 10_state.md, R62) and the operands the
consumers read from it (R63). -/

namespace Sys2Proof.Machine

/-- `params[i]` (R14). -/
def State.param (s : State) (i : Nat) : Word := s.params.getD i 0

/-- `params[i] <- v` (R14). -/
def State.setParam (s : State) (i : Nat) (v : Word) : State := { s with params := s.params.set i v }

/-- The parameter reset (R18). -/
def State.resetParams (s : State) : State := { s.setParam 0 0 with pLength := 1 }

/-- The current parameter with one more decimal digit, modulo 2^32 (R96). -/
def State.accumulate (s : State) (d : BitVec 4) : Word :=
  s.param (s.pLength - 1) * 10 + d.setWidth 32

/-- DIGIT's effect on the parameters (R96). -/
def State.addDigit (s : State) (d : BitVec 4) : State := s.setParam (s.pLength - 1) (s.accumulate d)

/-- SEMI's effect on the parameters (R97); the 8 of the rule is `PARAM_SIZE` (R7). -/
def State.openParam (s : State) : State :=
  if s.pLength < s.build.paramSize then { s.setParam s.pLength 0 with pLength := s.pLength + 1 } else s

/-- The compression count, 0 read as 1 (R115). -/
def State.repeatCount (s : State) : Nat := if s.param 0 = 0 then 1 else (s.param 0).toNat

/-- The palette index of a color introducer, `params[0] mod palette_length` (R82). -/
def State.paletteIndex (s : State) : Nat := (s.param 0).toNat % s.paletteLength

/-- `bounds_ok` (R87). -/
def State.boundsOk (s : State) : Bool :=
  (if s.param 1 = 1 then decide ((s.param 2).toNat ≤ 360) else decide ((s.param 2).toNat ≤ 100)) &&
    decide ((s.param 3).toNat ≤ 100) && decide ((s.param 4).toNat ≤ 100)

/-- Whether the color introducer is an assign (the condition of R86). -/
def State.isAssign (s : State) : Bool :=
  decide (s.pLength = 5) && (decide (s.param 1 = 1) || decide (s.param 1 = 2)) && s.boundsOk

/-- A raster attribute of a malformed preamble: the parameter, or 0 where there is none (R107). -/
def State.paramIfPresent (s : State) (i : Nat) : Word := if i < s.pLength then s.param i else 0

end Sys2Proof.Machine
end

