-- ==== Sys2Proof/Machine/Ops.lean ====
section
/-! DEFINITION. The named operations the meanings are made of: element access, the palette and the color
resolution (41_palette.md), the paint kernels (42_paint_kernels.md), the band controller
(47_band_controller.md), and the events: raising a callback, ending a DECODE, refusing a transaction
(48_host_interface.md, 60_exceptions.md). -/

namespace Sys2Proof.Machine

/-- What a step or a meaning answers. -/
abbrev Result := Host.Outcome State Fault Refusal

/-! Element access (R43 to R46) -/

/-- The array of a space. -/
def State.mem (s : State) : Space → Mem
  | .inbuf => s.inbuf
  | .palette => s.palette
  | .rowbuf => s.rowbuf

/-- The state with another array in a space. -/
def State.withMem (s : State) (sp : Space) (m : Mem) : State :=
  match sp with
  | .inbuf => { s with inbuf := m }
  | .palette => { s with palette := m }
  | .rowbuf => { s with rowbuf := m }

/-- The byte at an offset of a space: the last one written, or the unspecified power-on value (R45). -/
def State.byteAt (s : State) (sp : Space) (a : Nat) : Byte :=
  match (s.mem sp).read? a with
  | some b => b
  | none => Config.powerOnByte sp a

/-- Element `i` of a word space, least significant byte first (R46). -/
def State.wordAt (s : State) (sp : Space) (i : Nat) : Word :=
  Word.ofBytes (s.byteAt sp (4 * i)) (s.byteAt sp (4 * i + 1)) (s.byteAt sp (4 * i + 2))
    (s.byteAt sp (4 * i + 3))

/-- Write consecutive bytes of a space. -/
def State.writeBytes (s : State) (sp : Space) (a : Nat) (bs : List Byte) : State :=
  s.withMem sp ((s.mem sp).write a bs)

/-- Write element `i` of a word space (R46). -/
def State.setWord (s : State) (sp : Space) (i : Nat) (w : Word) : State := s.writeBytes sp (4 * i) w.bytes

/-- The host's byte address of an element's first byte (R50): the open base of its space plus the element
size times the index. -/
def hostByteAddress (sp : Space) (index : Nat) : Nat :=
  match sp with
  | .inbuf => Config.inbufBase + Space.elemBytes .inbuf * index
  | .palette => Config.paletteBase + Space.elemBytes .palette * index
  | .rowbuf => Config.rowbufBase + Space.elemBytes .rowbuf * index

/-! The row buffers (R31, R43) and the paint kernels (R90 to R94) -/

/-- The ROWBUF index of slot `i` of row `r` (R43). -/
def pixelIndex (b : Build) (r i : Nat) : Nat := r * b.rowStride + i

/-- The byte offset in ROWBUF of slot `i` of row `r` (R43, R46). -/
def pixelOffset (b : Build) (r i : Nat) : Nat := 4 * pixelIndex b r i

/-- Write one value into `n` slots of row `r` from slot `lo` up. -/
def State.paintRow (s : State) (r lo n : Nat) (w : Word) : State :=
  s.writeBytes .rowbuf (pixelOffset s.build r lo) (repeatBytes n w)

/-- Write one value into `n` slots from `lo` up of every row whose bit of the mask is set (R60). -/
def State.paintRows (s : State) (mask : BitVec 6) (lo n : Nat) (w : Word) : State :=
  [0, 1, 2, 3, 4, 5].foldl (fun t r => if mask.getLsbD r then t.paintRow r lo n w else t) s

/-- `put_single` (R90). -/
def State.putSingle (s : State) (code6 : BitVec 6) (color : Word) (col : Nat) : State :=
  if col < s.build.maxWidth then s.paintRows code6 col 1 color else s

/-- The pixels of a run that fit, `m` of R91. -/
def State.runLength (s : State) (n col : Nat) : Nat :=
  if col < s.build.maxWidth then min n (s.build.maxWidth - col) else 0

/-- `put_run` (R91). -/
def State.putRun (s : State) (code6 : BitVec 6) (color : Word) (n col : Nat) : State :=
  s.paintRows code6 col (s.runLength n col) color

/-- `fill_row_range` (R94). -/
def State.fillRowRange (s : State) (lo hi : Nat) : State := s.paintRows 63 lo (hi - lo) s.fillColor

/-- A cursor advance, saturating at `MAX_WIDTH` (R21). -/
def State.advanceCursor (s : State) (n : Nat) : State :=
  { s with cursor := min (s.cursor + n) s.build.maxWidth }

/-! The band controller (R139 to R142) -/

/-- `reset_line_m1` (R139). -/
def State.resetLineM1 (s : State) : State :=
  let k := if 0 < s.width then (s.width + 127) / 128 else 1
  let hi := min (4 + 128 * k) s.build.rowCap
  { s.fillRowRange 4 hi with clearedWidth := hi }

/-- `reset_line_m2` (R140). -/
def State.resetLineM2 (s : State) : State := s.fillRowRange 4 s.width

/-- One pass of the loop of `clear_upto` (R141). -/
def State.clearChunk (s : State) : State :=
  let hi := min (s.clearedWidth + 128) s.build.rowCap
  { s.fillRowRange s.clearedWidth hi with clearedWidth := hi }

/-- The loop of `clear_upto` with a bound on its passes. -/
def State.clearLoop (limit : Nat) : Nat → State → State
  | 0, s => s
  | fuel + 1, s => if s.clearedWidth < limit then State.clearLoop limit fuel s.clearChunk else s

/-- `clear_upto` (R141). Every pass raises `cleared_width` by at least one while it lies below a limit of at
most `MAX_WIDTH`, so `limit` passes are enough. -/
def State.clearUpto (s : State) (limit : Nat) : State := State.clearLoop limit limit s

/-- `update_real_width` (R142). -/
def State.updateRealWidth (s : State) : State :=
  { s with realWidth := min (max s.realWidth s.cursor) s.build.maxWidth }

/-! The palette and the color resolution (R82 to R88) -/

/-- The converted color of an assign (R80, R86). -/
def State.assignedColor (s : State) : Word :=
  if s.param 1 = 1 then hlsColor (s.param 2).toNat (s.param 3).toNat (s.param 4).toNat
  else normalizeRgb (s.param 2).toNat (s.param 3).toNat (s.param 4).toNat

/-- `resolve_color` (R83): select, assign, or nothing. -/
def State.resolveColor (s : State) : State :=
  if s.pLength = 1 then { s with color := s.wordAt .palette s.paletteIndex }
  else if s.isAssign then
    { s.setWord .palette s.paletteIndex s.assignedColor with color := s.assignedColor }
  else s

/-- `palette_length` is in its range, so that every palette index of the block is a register (R29, R82). -/
def State.paletteOk (s : State) : Bool :=
  decide (1 ≤ s.paletteLength) && decide (s.paletteLength ≤ s.build.paletteSize)

/-- End a color introducer if one is open, then go on (R84): the resolution, or nothing outside state Color.
A palette index that is no register stops the machine (log 14). -/
def State.resolveThen (s : State) (k : State → Result) : Result :=
  if s.parser = .color then
    if s.paletteOk then k s.resolveColor else .fault .noSuchElement
  else k s

/-! Sequencing, events and faults -/

/-- `pos <- pos + 1`, the end of a byte rule. -/
def State.advance (s : State) : State := { s with pos := s.pos + 1 }

/-- Something the block sends to the host. -/
def State.send (s : State) (x : Signal) : State := { s with out := x :: s.out }

/-- `Callback(kind, arg)` up to the wait (R153, R164): the event goes to the host and the phase is the kind's. -/
def State.raiseCallback (s : State) (kind : CallbackKind) (arg : Word) : State :=
  { s.send (.callback kind arg) with phase := kind.waitPhase }

/-- `Callback(MODE, m)` with the code of the mode (R145). -/
def State.raiseMode (s : State) (m : Mode) : State := s.raiseCallback .mode (m.code.setWidth 32)

/-- `Callback(BAND, w)` with the width of the band (R143). -/
def State.raiseBand (s : State) (w : Nat) : State := s.raiseCallback .band (BitVec.ofNat 32 w)

/-- The return from a callback (R153, R165): `phase <- RUN`. The guard slots' free value is drawn anew from here
on (log 12). -/
def State.resume (s : State) : State := { s with phase := .run, guardEpoch := s.guardEpoch + 1 }

/-- `complete()`, the end of a DECODE (R151), raising DONE (R162). -/
def State.complete (s : State) : State := { s.send .done with phase := .idle }

/-- A host-contract fault (R167): nothing changes but `fault`, a set of records. -/
def State.refuse (s : State) (c : FaultCode) (t : Transaction) : State :=
  { s with fault := if (⟨c, t⟩ : FaultRecord) ∈ s.fault then s.fault else s.fault ++ [⟨c, t⟩] }

end Sys2Proof.Machine
end

