-- ==== Sys2Proof/Machine/Preamble.lean ====
section
/-! DEFINITION. The commit of the raster preamble (44_raster_preamble.md): what a SIXEL, BANG, HASH, DOLLAR or
DASH byte does in mode Undecided. -/

namespace Sys2Proof.Machine

/-- The registers of a commit to L1 and M1 (R105, R107): the raster registers are given, width and height
are 0. -/
def State.commitL1 (s : State) (num denom width : Word) : State :=
  { s with
    level := .l1, mode := .m1, rNum := num, rDenom := denom, rWidth := width, rHeight := 0
    width := 0, height := 0 }

/-- The registers of the commit without raster attributes (R105). -/
def State.commitPlain (s : State) : State := s.commitL1 0 0 0

/-- The registers of the commit of malformed raster attributes (R107). -/
def State.commitMalformed (s : State) : State :=
  s.commitL1 (s.param 0) (s.paramIfPresent 1) (s.paramIfPresent 2)

/-- The registers of the commit of well-formed raster attributes (R106). -/
def State.commitRaster (s : State) : State :=
  { s with
    rNum := s.param 0, rDenom := s.param 1, rWidth := s.param 2, rHeight := s.param 3
    level := .l2
    mode := if s.truncate then .m2 else .m1
    width := if s.truncate then min (s.param 2).toNat s.build.maxWidth + 4 else 0
    height := if s.truncate then s.param 3 else 0 }

/-- `reset_line_m1` or `reset_line_m2`, as the committed mode asks (R108). -/
def State.resetLine (s : State) : State := if s.mode = .m1 then s.resetLineM1 else s.resetLineM2

/-- `commit_common` up to the wait for the MODE answer (R108); `execAnswer` goes on from there. -/
def State.commitCommon (s : State) : State :=
  ({ s with parser := .data }.resetParams.resetLine).raiseMode s.mode

/-- The commit (R104): the trigger byte is not consumed, `pos` stays. A state other than Data and Attr does not
occur in mode Undecided (R16, log 13). -/
def State.commit (s : State) : Result :=
  match s.parser with
  | .data => .next s.commitPlain.commitCommon
  | .attr =>
    if 4 ≤ s.pLength then .next s.commitRaster.commitCommon else .next s.commitMalformed.commitCommon
  | .compression => .fault .noRule
  | .color => .fault .noRule

end Sys2Proof.Machine
end

