-- ==== Sys2Proof/Machine/Bands.lean ====
section
/-! DEFINITION. The carriage return and the band end: DOLLAR and DASH (R119, R120 of 45_mode_m1.md, R133, R134 of
46_mode_m2.md). -/

namespace Sys2Proof.Machine

/-- DOLLAR: the commit in mode Undecided (R104), R119 in M1, R133 in M2. -/
def execDollar (s : State) : Result :=
  match s.mode with
  | .undecided => s.commit
  | .m1 => .next { s.updateRealWidth with cursor := 4 }.advance
  | .m2 => .next { s with cursor := 4 }.advance

/-- DASH in M1 up to the wait for the BAND answer (R120). -/
def State.emitBandM1 (s : State) : State :=
  let t := { s.updateRealWidth with cursor := 4 }
  t.raiseBand (t.realWidth - 4)

/-- DASH: the commit in mode Undecided (R104); in M1 and M2 it raises the BAND callback (R120, R134), and
`execAnswer` goes on from there. -/
def execDash (s : State) : Result :=
  match s.mode with
  | .undecided => s.commit
  | .m1 => .next s.emitBandM1
  | .m2 => .next (s.raiseBand (s.width - 4))

end Sys2Proof.Machine
end

