-- ==== Sys2Proof/Machine/Commands.lean ====
section
/-! DEFINITION. The host commands: INIT, DECODE, ANSWER (48_host_interface.md), CURRENT_WIDTH
(47_band_controller.md), HOST_READ and HOST_WRITE (20_memory.md). A refused one records its fault and has no
other effect (R155, R167, R168). -/

namespace Sys2Proof.Machine

/-- The effect of an admitted INIT (R148, R174). -/
def State.initialise (s : State) (sixelColor fillColor paletteLength truncate : Word) : State :=
  { s.resetParams with
    parser := .data
    cursor := 4
    color := sixelColor
    fillColor := fillColor
    paletteLength := min (max paletteLength.toNat 1) s.build.paletteSize
    width := 0
    height := 0
    rNum := 0
    rDenom := 0
    rWidth := 0
    rHeight := 0
    realWidth := 4
    clearedWidth := 4
    mode := .undecided
    level := .undecided
    truncate := nonZero truncate
    abort := false
    inited := true }

/-- INIT (R148). -/
def execInit (sixelColor fillColor paletteLength truncate : Word) (s : State) : Result :=
  if s.phase = .idle then .next (s.initialise sixelColor fillColor paletteLength truncate)
  else .next (s.refuse .busy (.known (.init sixelColor fillColor paletteLength truncate)))

/-- The range check of DECODE on its signed operands, `0 ≤ start ≤ end ≤ CHUNK_SIZE - 1` (R150). -/
def State.rangeOk (s : State) (start endArg : Word) : Bool :=
  decide (0 ≤ start.toInt) && decide (start.toInt ≤ endArg.toInt) &&
    decide (endArg.toInt ≤ (s.build.chunkSize : Int) - 1)

/-- The effect of an admitted DECODE with `abort = 0` (R150): the sentinel, the range, RUN. -/
def State.startDecode (s : State) (start endArg : Word) : State :=
  { (s.writeBytes .inbuf endArg.toNat [0xFF]).resume with endPos := endArg.toNat, pos := start.toNat }

/-- DECODE (R150); with `abort = 1` it completes at once and writes nothing (R166). -/
def execDecode (start endArg : Word) (s : State) : Result :=
  if s.inited = false then .next (s.refuse .notInited (.known (.decode start endArg)))
  else if s.phase ≠ .idle then .next (s.refuse .busy (.known (.decode start endArg)))
  else if s.rangeOk start endArg = false then .next (s.refuse .badRange (.known (.decode start endArg)))
  else if s.abort then .next s.complete
  else .next (s.startDecode start endArg)

/-- The effect and the result of an admitted CURRENT_WIDTH (R147). -/
def State.reportWidth (s : State) : State :=
  match s.mode with
  | .m1 =>
    let t := s.updateRealWidth
    t.send (.width (BitVec.ofNat 32 (min (max t.realWidth 4) t.build.maxWidth - 4)))
  | .m2 => s.send (.width (BitVec.ofNat 32 (s.width - 4)))
  | .undecided => s.send (.width 0)

/-- CURRENT_WIDTH (R147). -/
def execCurrentWidth (s : State) : Result :=
  if s.inited = false then .next (s.refuse .notInited (.known .currentWidth))
  else if s.phase = .run then .next (s.refuse .busy (.known .currentWidth))
  else .next s.reportWidth

/-- The rest of the commit after the MODE answer (R108, R109, R166): 0 goes on at the same `pos`. -/
def State.answerMode (s : State) (value : Word) : State :=
  if nonZero value then { s.resume with abort := true }.complete else s.resume

/-- The rest of DASH in M1 after the BAND answer (R120, R144, R166). -/
def State.answerBandM1 (s : State) (value : Word) : State :=
  if nonZero value then { s.resume with abort := true, cursor := 4, realWidth := 4 }.complete
  else { s.resume.resetLineM1 with cursor := 4, realWidth := 4 }.advance

/-- The rest of DASH in M2 after the BAND answer (R134, R144, R166). A `width` past ROWCAP stops the machine
(log 14). -/
def State.answerBandM2 (s : State) (value : Word) : Result :=
  if nonZero value then .next { s.resume with abort := true, cursor := 4 }.complete
  else if s.width ≤ s.build.rowCap then .next { s.resume.resetLineM2 with cursor := 4 }.advance
  else .fault .noSuchElement

/-- ANSWER (R154): ends the outstanding callback and goes on with the byte rule that raised it. A BAND callback
in mode Undecided does not occur (R162, log 13). -/
def execAnswer (value : Word) (s : State) : Result :=
  match s.phase with
  | .idle => .next (s.refuse .noCallback (.known (.answer value)))
  | .run => .next (s.refuse .noCallback (.known (.answer value)))
  | .waitMode => .next (s.answerMode value)
  | .waitBand =>
    match s.mode with
    | .undecided => .fault .noRule
    | .m1 => .next (s.answerBandM1 value)
    | .m2 => s.answerBandM2 value

/-- What a host read of an element returns (R44, R45); a guard slot reads as a free value. -/
def State.readElement (s : State) (sp : Space) (i : Nat) : Signal :=
  match sp with
  | .inbuf => .readByte (s.byteAt .inbuf i)
  | .palette => .readWord (s.wordAt .palette i)
  | .rowbuf =>
    if i % s.build.rowStride < Build.guard then .readWord (Config.guardWord i s.guardEpoch)
    else .readWord (s.wordAt .rowbuf i)

/-- HOST_READ (R44, R53). -/
def execHostRead (sp : Space) (index : Word) (s : State) : Result :=
  if s.phase = .run then .next (s.refuse .accessInFlight (.known (.hostRead sp index)))
  else if s.build.count sp ≤ index.toNat then .next (s.refuse .badIndex (.known (.hostRead sp index)))
  else .next (s.send (s.readElement sp index.toNat))

/-- The element write of an admitted HOST_WRITE (R44): 8 bits for INBUF, 32 bits otherwise. -/
def State.writeElement (s : State) (sp : Space) (i : Nat) (v : Word) : State :=
  match sp with
  | .inbuf => s.writeBytes .inbuf i [v.byte 0]
  | .palette => s.setWord .palette i v
  | .rowbuf => s.setWord .rowbuf i v

/-- HOST_WRITE (R44, R53). The guard slots' free value is drawn anew from here on (log 12). -/
def execHostWrite (sp : Space) (index value : Word) (s : State) : Result :=
  if s.phase ≠ .idle then .next (s.refuse .accessInFlight (.known (.hostWrite sp index value)))
  else if s.build.count sp ≤ index.toNat then .next (s.refuse .badIndex (.known (.hostWrite sp index value)))
  else .next { s.writeElement sp index.toNat value with guardEpoch := s.guardEpoch + 1 }

end Sys2Proof.Machine
end

