-- ==== Sys2Proof/Machine/Introducers.lean ====
section
/-! DEFINITION. The introducers BANG, HASH and QUOTE (R102 of 44_raster_preamble.md, R117, R118, R121 of
45_mode_m1.md, R131, R132, R135 of 46_mode_m2.md). -/

namespace Sys2Proof.Machine

/-- The tail of BANG and HASH after the color resolution: a new parameter list, the new parser state, the next
byte (R117, R118). -/
def State.openList (s : State) (p : ParserState) : State := { s.resetParams with parser := p }.advance

/-- BANG: the commit in mode Undecided (R104), else R117 and R131. -/
def execBang (s : State) : Result :=
  match s.mode with
  | .undecided => s.commit
  | .m1 => s.resolveThen fun t => .next (t.openList .compression)
  | .m2 => s.resolveThen fun t => .next (t.openList .compression)

/-- HASH: the commit in mode Undecided (R104), else R118 and R132. -/
def execHash (s : State) : Result :=
  match s.mode with
  | .undecided => s.commit
  | .m1 => s.resolveThen fun t => .next (t.openList .color)
  | .m2 => s.resolveThen fun t => .next (t.openList .color)

/-- QUOTE: opens the raster attributes in mode Undecided, state Data (R102), else no effect but `pos` (R102,
R121, R135). -/
def execQuote (s : State) : Result :=
  match s.mode with
  | .undecided => if s.parser = .data then .next (s.openList .attr) else .next s.advance
  | .m1 => .next s.advance
  | .m2 => .next s.advance

end Sys2Proof.Machine
end

