-- ==== Sys2Proof/Machine/Parameters.lean ====
section
/-! DEFINITION. The parameter bytes and the ignored bytes (43_parameters.md): one rule for every mode and state
(R100, R101, R103, R112, R113, R122, R126, R127, R136). -/

namespace Sys2Proof.Machine

/-- DIGIT (R96). -/
def execDigit (d : BitVec 4) (s : State) : Result := .next (s.addDigit d).advance

/-- SEMI (R97). -/
def execSemi (s : State) : Result := .next s.openParam.advance

/-- IGNORED (R98). -/
def execIgnored (s : State) : Result := .next s.advance

end Sys2Proof.Machine
end

