-- ==== Sys2Proof/Machine/Sixel.lean ====
section
/-! DEFINITION. The SIXEL byte (R114 to R116 of 45_mode_m1.md, R128 to R130 of 46_mode_m2.md). -/

namespace Sys2Proof.Machine

/-- SIXEL in mode M1, state Data (R114). -/
def State.sixelDataM1 (s : State) (code6 : BitVec 6) : State :=
  let t := s.clearUpto (min (s.cursor + 1) s.build.maxWidth)
  ((t.putSingle code6 s.color s.cursor).advanceCursor 1).advance

/-- SIXEL in mode M1, state Compression (R115). -/
def State.sixelRunM1 (s : State) (code6 : BitVec 6) : State :=
  let n := s.repeatCount
  let t := s.clearUpto (min (s.cursor + n) s.build.maxWidth)
  { (t.putRun code6 s.color n s.cursor).advanceCursor n with parser := .data }.advance

/-- SIXEL in mode M2, state Data (R128). -/
def State.sixelDataM2 (s : State) (code6 : BitVec 6) : State :=
  ((s.putSingle code6 s.color s.cursor).advanceCursor 1).advance

/-- SIXEL in mode M2, state Compression (R129). -/
def State.sixelRunM2 (s : State) (code6 : BitVec 6) : State :=
  let n := s.repeatCount
  { (s.putRun code6 s.color n s.cursor).advanceCursor n with parser := .data }.advance

/-- SIXEL: the commit in mode Undecided (R104); in M1 and M2 by the state, where an open color introducer is
resolved first and the byte is then processed in state Data (R116, R130). State Attr does not occur in M1
and M2 (R16, log 13). -/
def execSixel (code6 : BitVec 6) (s : State) : Result :=
  match s.mode with
  | .undecided => s.commit
  | .m1 =>
    match s.parser with
    | .data => .next (s.sixelDataM1 code6)
    | .compression => .next (s.sixelRunM1 code6)
    | .color => s.resolveThen fun t => .next ({ t with parser := .data }.sixelDataM1 code6)
    | .attr => .fault .noRule
  | .m2 =>
    match s.parser with
    | .data => .next (s.sixelDataM2 code6)
    | .compression => .next (s.sixelRunM2 code6)
    | .color => s.resolveThen fun t => .next ({ t with parser := .data }.sixelDataM2 code6)
    | .attr => .fault .noRule

end Sys2Proof.Machine
end

