-- ==== Sys2Proof/Machine/Dispatch.lean ====
section
/-! DEFINITION. The meaning of every instruction: one arm per constructor of `Instr`. -/

namespace Sys2Proof.Machine

def exec (i : Instr) (s : State) : Host.Outcome State Fault Refusal :=
  match i with
  | .digit d => Sys2Proof.Machine.execDigit d s
  | .semi => Sys2Proof.Machine.execSemi s
  | .bang => Sys2Proof.Machine.execBang s
  | .hash => Sys2Proof.Machine.execHash s
  | .quote => Sys2Proof.Machine.execQuote s
  | .dollar => Sys2Proof.Machine.execDollar s
  | .dash => Sys2Proof.Machine.execDash s
  | .sixel code6 => Sys2Proof.Machine.execSixel code6 s
  | .ignored => Sys2Proof.Machine.execIgnored s
  | .init sixelColor fillColor paletteLength truncate => Sys2Proof.Machine.execInit sixelColor fillColor paletteLength truncate s
  | .decode start endArg => Sys2Proof.Machine.execDecode start endArg s
  | .currentWidth => Sys2Proof.Machine.execCurrentWidth s
  | .answer value => Sys2Proof.Machine.execAnswer value s
  | .hostRead space index => Sys2Proof.Machine.execHostRead space index s
  | .hostWrite space index value => Sys2Proof.Machine.execHostWrite space index value s

end Sys2Proof.Machine
end

