-- ==== Sys2Proof/Machine/Fetch.lean ====
section
/-! DEFINITION. Who moves next, and what it fetches: the block reads the byte at `pos` while it runs (R151), the
host's next transaction is taken from the command port otherwise (R155). -/

namespace Sys2Proof.Machine

/-- What the next step does. -/
inductive Turn where
  | wait                          -- nothing to do: the block waits for the host (R153, R157)
  | finish (s : State)            -- `pos = end`: the DECODE completes (R151)
  | run (i : Instr) (s : State)   -- an instruction, and the state it runs in
  | bad (w : TxnWord) (s : State) -- a word of the command port that is no transaction (R70)
  | stop (r : Fault)              -- the fetch leaves INBUF (log 14)
deriving DecidableEq, Repr

/-- The block's move in RUN (R151): complete at `pos = end`, else the byte at `pos`. -/
def State.byteTurn (s : State) : Turn :=
  if s.pos = s.endPos then .finish s
  else if s.pos < s.build.chunkSize then .run (decodeByte (s.byteAt .inbuf s.pos)) s
  else .stop .noSuchElement

/-- The host's move: the first pending transaction is taken from the port and decoded (R70). -/
def State.hostTurn (s : State) (r : Request) (rest : List Request) : Turn :=
  match decodeCommand r.word with
  | .ok i => .run i { s with port := rest }
  | .error _ => .bad r.word { s with port := rest }

/-- Who moves next (log 6). In RUN the block moves unless a pending transaction has reached its arrival; in
every other phase the host moves if it has a transaction, and else nothing happens (log 21). -/
def State.turn (s : State) : Turn :=
  match s.port with
  | [] => if s.phase = .run then s.byteTurn else .wait
  | r :: rest =>
    if s.phase = .run then
      match r.arrival with
      | .synchronous => s.byteTurn
      | .afterBytes 0 => s.hostTurn r rest
      | .afterBytes (n + 1) => { s with port := ⟨.afterBytes n, r.word⟩ :: rest }.byteTurn
    else s.hostTurn r rest

/-- Whether the first pending transaction would be taken before the next byte. -/
def State.portFirst (s : State) : Bool :=
  match s.port with
  | [] => false
  | r :: _ => decide (r.arrival = .afterBytes 0)

/-- Place an instruction of the opcode table's numbering where the next step fetches it (log 9): a transaction at
the head of the command port, due at once; a byte at `INBUF[pos]` with a DECODE in flight over it. -/
def State.place (s : State) (nbits w : Nat) : State :=
  match tableEncoding nbits w with
  | .command c => { s with port := ⟨.afterBytes 0, c⟩ :: s.port }
  | .byte b =>
    { s.writeBytes .inbuf s.pos [b] with
      phase := .run
      endPos := if s.pos = s.endPos then s.pos + 1 else s.endPos
      port := if s.portFirst then [] else s.port }

end Sys2Proof.Machine
end

