-- ==== Sys2Proof/Machine/Step.lean ====
section
/-! DEFINITION. One step of the machine: one byte of the block or one transaction of the host. -/

namespace Sys2Proof.Machine

/-- One step (R15, R151): whoever moves next (`State.turn`) moves, atomically. -/
def step (s : State) : Host.Outcome State Fault Refusal :=
  match s.turn with
  | .wait => .next s
  | .finish t => .next t.complete
  | .run i t => exec i t
  | .bad w t => .next (t.refuse .badCommand (.unknown w))
  | .stop r => .fault r

/-- The state with an instruction of the opcode table's numbering placed where the next step fetches it. -/
def State.withFetchWord (s : State) (nbits w : Nat) : State := s.place nbits w

end Sys2Proof.Machine
end

