-- ==== Sys2Proof/Machine/Wide.lean ====
section
/-! DEFINITION. `put_wide`, the four-pixel form of the paint kernel (R92 of 42_paint_kernels.md). It is an
option of an implementation without architectural effect of its own (R93); no meaning calls it (log 15). -/

namespace Sys2Proof.Machine

/-- Lane `j` of the aggregate: byte `j`, zero-extended to 32 bits (R92). -/
def wideLane (agg : Word) (j : Nat) : Word := (agg.byte j).setWidth 32

/-- The lane mask of row `i`: all ones where bit `i` of the lane is set (R92). -/
def wideMask (agg : Word) (i j : Nat) : Word :=
  let bit : Word := 1 <<< i
  if wideLane agg j &&& bit = bit then BitVec.allOnes 32 else 0

/-- The pixel stored back in lane `j` of row `i` (R92). -/
def State.wideLaneValue (s : State) (agg color : Word) (col i j : Nat) : Word :=
  (wideMask agg i j &&& color) |||
    (~~~ (wideMask agg i j) &&& s.wordAt .rowbuf (pixelIndex s.build i (col + j)))

/-- One SIMD iteration of `put_wide`: load, blend and store four slots of row `i` (R92). -/
def State.wideRow (s : State) (agg color : Word) (col i : Nat) : State :=
  s.writeBytes .rowbuf (pixelOffset s.build i col)
    ((s.wideLaneValue agg color col i 0).bytes ++ (s.wideLaneValue agg color col i 1).bytes ++
      (s.wideLaneValue agg color col i 2).bytes ++ (s.wideLaneValue agg color col i 3).bytes)

/-- `put_wide` (R92): six iterations, one per row. -/
def State.putWide (s : State) (agg color : Word) (col : Nat) : State :=
  [0, 1, 2, 3, 4, 5].foldl (fun t i => t.wideRow agg color col i) s

end Sys2Proof.Machine
end

