-- ==== Sys2Proof/Safety.lean ====
section
/-! DEFINITION. What counts as a good state and a safe run: the final and the stuck states (R157 of
48_host_interface.md), the bytes a run of pixels covers, and the invariant of the block (R42 of 10_state.md
with the legal combinations R16, R33 to R35, R37 and R123). -/

namespace Sys2Proof.Machine

/-- A final state of a run (R157, R41): no DECODE in flight and no host-contract fault recorded. -/
abbrev State.final (s : State) : Prop := s.phase = .idle ∧ s.fault = []

/-- A stuck state (R157, U15 of 93_implementation_defined.md): a callback waits and no ANSWER is to come. Other
transactions may still be pending; CURRENT_WIDTH and HOST_READ among them are admitted. -/
def State.stuck (s : State) : Prop :=
  (s.phase = .waitMode ∨ s.phase = .waitBand) ∧
    ∀ r ∈ s.port, ∀ v, decodeCommand r.word ≠ .ok (.answer v)

/-- The machine completes a step. -/
abbrev completes (s : State) : Prop := ∃ t, step s = .next t

/-- Byte offset `x` of ROWBUF lies in one of the `n` slots from `lo` up of a row whose bit of the mask is set:
the bytes a paint of that run stores to, computed with the kernels' own `pixelOffset`. -/
def inRun (b : Build) (mask : BitVec 6) (lo n x : Nat) : Prop :=
  ∃ r, r < 6 ∧ mask.getLsbD r = true ∧ pixelOffset b r lo ≤ x ∧ x < pixelOffset b r lo + 4 * n

/-- From `s` to `t` the bytes of such a run in ROWBUF became the bytes of `w`, and every other byte of ROWBUF reads
as before. -/
def State.painted (s t : State) (mask : BitVec 6) (lo n : Nat) (w : Word) : Prop :=
  ∀ x, (inRun s.build mask lo n x → t.byteAt .rowbuf x = w.byte (x % 4)) ∧
    (¬ inRun s.build mask lo n x → t.byteAt .rowbuf x = s.byteAt .rowbuf x)

/-- From `s` to `t` the slots `lo..hi-1` of all rows became `fill` and then the run became `w`, and every other byte
of ROWBUF reads as before: what a sixel does in M1 (R114, R115). -/
def State.clearedAndPainted (s t : State) (lo hi : Nat) (fill : Word) (mask : BitVec 6) (col n : Nat) (w : Word) :
    Prop :=
  ∀ x, (inRun s.build mask col n x → t.byteAt .rowbuf x = w.byte (x % 4)) ∧
    (¬ inRun s.build mask col n x → inRun s.build 63 lo (hi - lo) x →
      t.byteAt .rowbuf x = fill.byte (x % 4)) ∧
    (¬ inRun s.build mask col n x → ¬ inRun s.build 63 lo (hi - lo) x →
      t.byteAt .rowbuf x = s.byteAt .rowbuf x)

/-- From `s` to `t` nothing changed but that the set `fault` gained one record: a refused transaction (R167). -/
def State.refusedInto (s t : State) (c : FaultCode) (txn : Transaction) : Prop :=
  t = { s with fault := t.fault } ∧ ∀ f, f ∈ t.fault ↔ f ∈ s.fault ∨ f = ⟨c, txn⟩

/-- The five classes that commit the preamble in mode Undecided (R104). -/
def commits : Instr → Bool
  | .bang => true
  | .hash => true
  | .dollar => true
  | .dash => true
  | .sixel _ => true
  | .digit _ => false
  | .semi => false
  | .quote => false
  | .ignored => false
  | .init _ _ _ _ => false
  | .decode _ _ => false
  | .currentWidth => false
  | .answer _ => false
  | .hostRead _ _ => false
  | .hostWrite _ _ _ => false

/-- What is left of a DECODE (R152): the bytes to go, and within one byte the order undecided, MODE callback,
committed, BAND callback. -/
def State.remaining (s : State) : Nat :=
  4 * (s.endPos - s.pos) +
    (if s.phase = .waitBand then 0
    else if s.phase = .waitMode then 2
    else if s.mode = .undecided then 3 else 1)

/-- Every byte of slots `4..hi-1` of all six rows has been written since power-on. -/
def State.rowsWritten (s : State) (hi : Nat) : Prop :=
  ∀ r i j, r < 6 → 4 ≤ i → i < hi → j < 4 →
    (s.rowbuf.read? (pixelOffset s.build r i + j)).isSome = true

/-- The frontier `clear_upto` leaves (R141): the first of `cleared + 128 k` at or past the limit, at most
ROWCAP. -/
def clearedAfter (b : Build) (cleared limit : Nat) : Nat :=
  if cleared < limit then min (cleared + 128 * ((limit - cleared + 127) / 128)) b.rowCap else cleared

/-- Three arrays in canonical form, listing only offsets of their spaces (R43). -/
structure State.ArraysOk (s : State) : Prop where
  inbufWf      : s.inbuf.wf = true
  paletteWf    : s.palette.wf = true
  rowbufWf     : s.rowbuf.wf = true
  inbufBelow   : s.inbuf.below s.build.chunkSize = true
  paletteBelow : s.palette.below (4 * s.build.paletteSize) = true
  rowbufBelow  : s.rowbuf.below (4 * (6 * s.build.rowStride)) = true

/-- The registers of an initialised block: the ranges of R42 and the legal combinations. -/
structure State.RegsOk (s : State) : Prop where
  pLength       : 1 ≤ s.pLength ∧ s.pLength ≤ s.build.paramSize                     -- R19, R42
  cursor        : 4 ≤ s.cursor ∧ s.cursor ≤ s.build.maxWidth                         -- R20, R42
  realWidth     : 4 ≤ s.realWidth ∧ s.realWidth ≤ s.build.maxWidth                   -- R34, R42
  clearedWidth  : 4 ≤ s.clearedWidth ∧ s.clearedWidth ≤ s.build.rowCap               -- R35, R42
  clearedStep   : s.clearedWidth % 128 = 4                                           -- R141
  widthM2       : s.mode = .m2 → 4 ≤ s.width ∧ s.width ≤ s.build.rowCap              -- R33, R42
  widthElse     : s.mode ≠ .m2 → s.width = 0                                         -- R33, R42
  paletteLength : 1 ≤ s.paletteLength ∧ s.paletteLength ≤ s.build.paletteSize        -- R29
  preamble      : s.mode = .undecided → s.parser = .data ∨ s.parser = .attr          -- R16
  committed     : s.mode ≠ .undecided → s.parser ≠ .attr                             -- R16
  levels        : s.level = .undecided ↔ s.mode = .undecided                         -- R104
  levelM2       : s.mode = .m2 → s.level = .l2                                       -- R106
  startCursor   : s.mode = .undecided → s.cursor = 4                                 -- R99, R148
  realUnused    : s.mode ≠ .m1 → s.realWidth = 4                                     -- R34
  frontier      : s.mode = .m1 → s.cursor ≤ s.clearedWidth ∧ s.realWidth ≤ s.clearedWidth  -- R123
  writtenM1     : s.mode = .m1 → s.rowsWritten s.clearedWidth                        -- R35, R123
  writtenM2     : s.mode = .m2 → s.rowsWritten s.width                               -- R137
  callback      : s.phase = .waitMode ∨ s.phase = .waitBand → s.mode ≠ .undecided ∧ s.pos < s.endPos  -- R162, R164
  inFlight      : s.phase ≠ .idle → s.abort = false                                  -- R166
  range         : s.phase ≠ .idle → s.pos ≤ s.endPos ∧ s.endPos < s.build.chunkSize  -- R37, R150

/-- The invariant of the block. The registers are constrained only once the block is initialised, since the spec
leaves them unspecified before (R173). -/
structure State.Inv (s : State) : Prop where
  build    : s.build.legal                                -- R5 to R8
  params   : s.params.length = s.build.paramSize          -- R17
  arrays   : s.ArraysOk                                   -- R43
  faults   : s.fault.Nodup                                -- R41, a set
  notReady : s.inited = false → s.phase = .idle           -- R40, R150
  regs     : s.inited = true → s.RegsOk

end Sys2Proof.Machine
end

