-- ==== Sys2Proof/Certificates/Slice0/Obligations.lean ====
section
/-! DEFINITION. The statements for the provers, from the numbered rules of spec/. Each says what an instruction or
the machine does, with its frame: `t = { s with ... }` names every field that may change, and the bytes of ROWBUF
are given one by one. -/

open Sys2Proof Sys2Proof.Machine

/-! Encoding -/

/-- Decoding the encoding of a well-formed instruction gives the instruction back, with every operand (R59 to
R61, R70). -/
def Obligations.DecodeOfEncodeIsTheInstruction : Prop :=
  ∀ i : Instr, i.wellFormed = true → decode (encode i) = .ok i

/-- R59, R61: the class of a byte and its field are fixed by its code. -/
def Obligations.ByteClassesAreTheTable : Prop :=
  ∀ b : Byte, let code := (b &&& 0x7F).toNat
    (∀ d, decodeByte b = .digit d ↔ 0x30 ≤ code ∧ code ≤ 0x39 ∧ d.toNat = code - 0x30) ∧
    (decodeByte b = .semi ↔ code = 0x3B) ∧ (decodeByte b = .bang ↔ code = 0x21) ∧
    (decodeByte b = .hash ↔ code = 0x23) ∧ (decodeByte b = .quote ↔ code = 0x22) ∧
    (decodeByte b = .dollar ↔ code = 0x24) ∧ (decodeByte b = .dash ↔ code = 0x2D) ∧
    (∀ c, decodeByte b = .sixel c ↔ 0x3F ≤ code ∧ code ≤ 0x7E ∧ c.toNat = code - 63) ∧
    (decodeByte b = .ignored ↔ code ≤ 0x20 ∨ (0x25 ≤ code ∧ code ≤ 0x2C) ∨ code = 0x2E ∨ code = 0x2F ∨
      code = 0x3A ∨ (0x3C ≤ code ∧ code ≤ 0x3E) ∨ code = 0x7F)

/-- R57: the low seven bits decide, and flipping bit 7 gives the same instruction. -/
def Obligations.HighBitOfAByteIsIgnored : Prop :=
  ∀ b : Byte, decodeByte (b &&& 0x7F) = decodeByte b ∧ decodeByte (b ^^^ 0x80) = decodeByte b

/-- R70: an opcode other than 1..6, and space code 3, is no transaction. -/
def Obligations.UnknownCommandWordsAreRejected : Prop :=
  ∀ w : TxnWord,
    ((w.extractLsb' 0 4).toNat = 0 ∨ 6 < (w.extractLsb' 0 4).toNat →
      decode (.command w) = .error (.unknownOpcode (w.extractLsb' 0 4))) ∧
    ((w.extractLsb' 0 4 = 5 ∨ w.extractLsb' 0 4 = 6) → w.extractLsb' 4 2 = 3 →
      decode (.command w) = .error .unknownSpace)

/-- Words written out from the tables of R59 and R70 decode to what they stand for. -/
def Obligations.WrittenWordsDecode : Prop :=
  decode (.byte 0b00110111) = .ok (.digit 7) ∧ decode (.byte 0b00100001) = .ok .bang ∧
  decode (.byte 0b01111110) = .ok (.sixel 0b111111) ∧ decode (.byte 0b11000001) = .ok (.sixel 0b000010) ∧
  decode (.byte 0b11111111) = .ok .ignored ∧ decode (.command 0x42) = .ok (.decode 4 0) ∧
  decode (.command 0x3) = .ok .currentWidth

/-! One step -/

/-- R151: in RUN, with bytes left and no transaction due, the step is the meaning of the byte at `pos`. A pending
transaction that lets `n + 1` bytes go first lets one less go afterwards (the model's own arrival, log 6). -/
def Obligations.StepRunsTheByteAtPos : Prop :=
  ∀ (s : State) (i : Instr), s.phase = .run → s.pos ≠ s.endPos → s.pos < s.build.chunkSize →
    decode (.byte (s.byteAt .inbuf s.pos)) = .ok i →
    (s.port = [] → step s = exec i s) ∧
    (∀ w rest, s.port = ⟨.synchronous, w⟩ :: rest → step s = exec i s) ∧
    (∀ n w rest, s.port = ⟨.afterBytes (n + 1), w⟩ :: rest →
      step s = exec i { s with port := ⟨.afterBytes n, w⟩ :: rest })

/-- R155: outside RUN, or when it is due, the first pending transaction is taken from the port; the step is its
meaning, and a word that is no transaction is the fault F_BAD_COMMAND (R70, R167). -/
def Obligations.StepTakesTheNextTransaction : Prop :=
  ∀ (s : State) (r : Request) (rest : List Request), s.port = r :: rest →
    (s.phase ≠ .run ∨ r.arrival = .afterBytes 0) →
    (∀ i, decode (.command r.word) = .ok i → step s = exec i { s with port := rest }) ∧
    (∀ e, decode (.command r.word) = .error e → ∃ t, step s = .next t ∧
      State.refusedInto { s with port := rest } t .badCommand (.unknown r.word))

/-- R151: at `pos = end`, with no transaction due, the DECODE completes, and a pending arrival counts down as for a
byte (log 6); with nothing to do the block waits (R153). -/
def Obligations.StepCompletesOrWaits : Prop :=
  ∀ s : State,
    (s.phase = .run → s.pos = s.endPos →
      (s.port = [] → step s = .next { s with phase := .idle, out := .done :: s.out }) ∧
      (∀ w rest, s.port = ⟨.synchronous, w⟩ :: rest →
        step s = .next { s with phase := .idle, out := .done :: s.out }) ∧
      (∀ n w rest, s.port = ⟨.afterBytes (n + 1), w⟩ :: rest →
        step s = .next { s with port := ⟨.afterBytes n, w⟩ :: rest, phase := .idle, out := .done :: s.out })) ∧
    (s.phase ≠ .run → s.port = [] → step s = .next s)

/-! Parameter bytes -/

/-- R96: DIGIT multiplies the current parameter by ten and adds the digit, modulo 2^32. -/
def Obligations.DigitAccumulates : Prop :=
  ∀ (d : BitVec 4) (s : State), exec (.digit d) s = .next { s with
    params := s.params.set (s.pLength - 1) (BitVec.ofNat 32 ((s.param (s.pLength - 1)).toNat * 10 + d.toNat))
    pos := s.pos + 1 }

/-- R97: SEMI opens the next parameter at 0 while there is one, and is ignored past the last. -/
def Obligations.SemiOpensAParameter : Prop :=
  ∀ s : State,
    (s.pLength < s.build.paramSize → exec .semi s = .next { s with
      params := s.params.set s.pLength 0, pLength := s.pLength + 1, pos := s.pos + 1 }) ∧
    (s.build.paramSize ≤ s.pLength → exec .semi s = .next { s with pos := s.pos + 1 })

/-- R98: IGNORED advances `pos` and nothing else. -/
def Obligations.IgnoredOnlyAdvances : Prop :=
  ∀ s : State, exec .ignored s = .next { s with pos := s.pos + 1 }

/-- R102: QUOTE in mode Undecided, state Data resets the parameters and enters Attr; in state Attr, and in every
state of M1 and M2 (R121, R135), it has no effect. -/
def Obligations.QuoteOpensTheRasterAttributes : Prop :=
  ∀ s : State,
    (s.mode = .undecided → s.parser = .data → exec .quote s = .next { s with
      params := s.params.set 0 0, pLength := 1, parser := .attr, pos := s.pos + 1 }) ∧
    (s.mode ≠ .undecided ∨ s.parser ≠ .data → exec .quote s = .next { s with pos := s.pos + 1 })

/-! The commit -/

/-- R105 with R108 up to the MODE callback: without raster attributes the stream commits L1 and M1, slots 4..131
are cleared, and `pos` stays. -/
def Obligations.CommitWithoutRasterAttributes : Prop :=
  ∀ (i : Instr) (s : State), commits i = true → s.build.legal → s.mode = .undecided → s.parser = .data →
    ∃ t, exec i s = .next t ∧
      t = { s with
        parser := .data, params := s.params.set 0 0, pLength := 1, level := .l1, mode := .m1
        rNum := 0, rDenom := 0, rWidth := 0, rHeight := 0, width := 0, height := 0
        rowbuf := t.rowbuf, clearedWidth := 132, phase := .waitMode, out := .callback .mode 1 :: s.out } ∧
      s.painted t 63 4 128 s.fillColor

/-- R106 with R108 up to the MODE callback: well-formed raster attributes commit L2, and M2 exactly if `truncate`
is set; M2 clears slots `4..width-1`, M1 slots 4..131. -/
def Obligations.CommitWithRasterAttributes : Prop :=
  ∀ (i : Instr) (s : State), commits i = true → s.build.legal → s.mode = .undecided → s.parser = .attr →
    4 ≤ s.pLength →
    (s.truncate = true → ∃ t, exec i s = .next t ∧
      t = { s with
        parser := .data, params := s.params.set 0 0, pLength := 1, level := .l2, mode := .m2
        rNum := s.param 0, rDenom := s.param 1, rWidth := s.param 2, rHeight := s.param 3
        width := min (s.param 2).toNat s.build.maxWidth + 4, height := s.param 3
        rowbuf := t.rowbuf, phase := .waitMode, out := .callback .mode 2 :: s.out } ∧
      s.painted t 63 4 (min (s.param 2).toNat s.build.maxWidth) s.fillColor) ∧
    (s.truncate = false → ∃ t, exec i s = .next t ∧
      t = { s with
        parser := .data, params := s.params.set 0 0, pLength := 1, level := .l2, mode := .m1
        rNum := s.param 0, rDenom := s.param 1, rWidth := s.param 2, rHeight := s.param 3
        width := 0, height := 0
        rowbuf := t.rowbuf, clearedWidth := 132, phase := .waitMode, out := .callback .mode 1 :: s.out } ∧
      s.painted t 63 4 128 s.fillColor)

/-- R107 with R108 up to the MODE callback: fewer than four raster attributes fall back to L1 and M1, whatever
`truncate` is, keeping the parameters that are present. -/
def Obligations.CommitWithMalformedRasterAttributes : Prop :=
  ∀ (i : Instr) (s : State), commits i = true → s.build.legal → s.mode = .undecided → s.parser = .attr →
    s.pLength < 4 →
    ∃ t, exec i s = .next t ∧
      t = { s with
        parser := .data, params := s.params.set 0 0, pLength := 1, level := .l1, mode := .m1
        rNum := s.param 0, rDenom := if 2 ≤ s.pLength then s.param 1 else 0
        rWidth := if 3 ≤ s.pLength then s.param 2 else 0, rHeight := 0, width := 0, height := 0
        rowbuf := t.rowbuf, clearedWidth := 132, phase := .waitMode, out := .callback .mode 1 :: s.out } ∧
      s.painted t 63 4 128 s.fillColor

/-! Sixel bytes -/

/-- R114: SIXEL in M1, state Data clears up to the next column, paints the selected rows of the column at the cursor
unless it is at MAX_WIDTH, and advances the cursor by one, saturating. -/
def Obligations.SixelInM1Data : Prop :=
  ∀ (c : BitVec 6) (s : State), s.mode = .m1 → s.parser = .data →
    ∃ t, exec (.sixel c) s = .next t ∧
      t = { s with
        rowbuf := t.rowbuf
        clearedWidth := clearedAfter s.build s.clearedWidth (min (s.cursor + 1) s.build.maxWidth)
        cursor := min (s.cursor + 1) s.build.maxWidth
        pos := s.pos + 1 } ∧
      s.clearedAndPainted t s.clearedWidth t.clearedWidth s.fillColor c s.cursor
        (if s.cursor < s.build.maxWidth then 1 else 0) s.color

/-- R115: SIXEL in M1, state Compression paints a run of `params[0]` columns, 0 read as 1, cut at MAX_WIDTH. -/
def Obligations.SixelInM1Compression : Prop :=
  ∀ (c : BitVec 6) (s : State) (n : Nat), s.mode = .m1 → s.parser = .compression →
    n = (if s.param 0 = 0 then 1 else (s.param 0).toNat) →
    ∃ t, exec (.sixel c) s = .next t ∧
      t = { s with
        rowbuf := t.rowbuf
        clearedWidth := clearedAfter s.build s.clearedWidth (min (s.cursor + n) s.build.maxWidth)
        cursor := min (s.cursor + n) s.build.maxWidth
        parser := .data
        pos := s.pos + 1 } ∧
      s.clearedAndPainted t s.clearedWidth t.clearedWidth s.fillColor c s.cursor
        (if s.cursor < s.build.maxWidth then min n (s.build.maxWidth - s.cursor) else 0) s.color

/-- R128: SIXEL in M2, state Data paints the column at the cursor, limited by MAX_WIDTH, without a clear. -/
def Obligations.SixelInM2Data : Prop :=
  ∀ (c : BitVec 6) (s : State), s.mode = .m2 → s.parser = .data →
    ∃ t, exec (.sixel c) s = .next t ∧
      t = { s with rowbuf := t.rowbuf, cursor := min (s.cursor + 1) s.build.maxWidth, pos := s.pos + 1 } ∧
      s.painted t c s.cursor (if s.cursor < s.build.maxWidth then 1 else 0) s.color

/-- R129: SIXEL in M2, state Compression paints a run of `params[0]` columns, 0 read as 1, without a clear. -/
def Obligations.SixelInM2Compression : Prop :=
  ∀ (c : BitVec 6) (s : State) (n : Nat), s.mode = .m2 → s.parser = .compression →
    n = (if s.param 0 = 0 then 1 else (s.param 0).toNat) →
    ∃ t, exec (.sixel c) s = .next t ∧
      t = { s with
        rowbuf := t.rowbuf, cursor := min (s.cursor + n) s.build.maxWidth, parser := .data, pos := s.pos + 1 } ∧
      s.painted t c s.cursor
        (if s.cursor < s.build.maxWidth then min n (s.build.maxWidth - s.cursor) else 0) s.color

/-- R116, R130: SIXEL in state Color resolves the color introducer, moves to Data and is processed there in the same
step. -/
def Obligations.SixelResolvesAnOpenColor : Prop :=
  ∀ (c : BitVec 6) (s : State), s.mode ≠ .undecided → s.parser = .color → 1 ≤ s.paletteLength →
    s.paletteLength ≤ s.build.paletteSize →
    exec (.sixel c) s = exec (.sixel c) { s.resolveColor with parser := .data }

/-! Introducers and the color resolution -/

/-- R117, R118, R131, R132 outside state Color: BANG and HASH start a new parameter list and enter Compression and
Color. -/
def Obligations.BangAndHashOpenAList : Prop :=
  ∀ s : State, s.mode ≠ .undecided → s.parser ≠ .color →
    exec .bang s = .next { s with
      params := s.params.set 0 0, pLength := 1, parser := .compression, pos := s.pos + 1 } ∧
    exec .hash s = .next { s with
      params := s.params.set 0 0, pLength := 1, parser := .color, pos := s.pos + 1 }

/-- R82, R85: a color introducer of one parameter, ended by BANG or HASH, selects a palette register and changes no
palette register. -/
def Obligations.ColorSelect : Prop :=
  ∀ s : State, s.mode ≠ .undecided → s.parser = .color → 1 ≤ s.paletteLength →
    s.paletteLength ≤ s.build.paletteSize → s.pLength = 1 →
    exec .bang s = .next { s with
      color := s.wordAt .palette ((s.param 0).toNat % s.paletteLength)
      params := s.params.set 0 0, pLength := 1, parser := .compression, pos := s.pos + 1 } ∧
    exec .hash s = .next { s with
      color := s.wordAt .palette ((s.param 0).toNat % s.paletteLength)
      params := s.params.set 0 0, pLength := 1, parser := .color, pos := s.pos + 1 }

/-- R86: a color introducer of five parameters in a known color space and within the bounds of R87, ended by BANG or
HASH, stores the converted color in its palette register, selects it, and changes no other byte. -/
def Obligations.ColorAssign : Prop :=
  ∀ (s : State) (k : Nat) (v : Word), s.mode ≠ .undecided → s.parser = .color → 1 ≤ s.paletteLength →
    s.paletteLength ≤ s.build.paletteSize → s.pLength = 5 →
    (s.param 1 = 1 ∧ (s.param 2).toNat ≤ 360 ∧
        v = normalizeHls Config.hlsFp (s.param 2).toNat (s.param 3).toNat (s.param 4).toNat ∨
      s.param 1 = 2 ∧ (s.param 2).toNat ≤ 100 ∧
        v = normalizeRgb (s.param 2).toNat (s.param 3).toNat (s.param 4).toNat) →
    (s.param 3).toNat ≤ 100 → (s.param 4).toNat ≤ 100 → k = (s.param 0).toNat % s.paletteLength →
    ∀ (i : Instr) (p : ParserState), i = .bang ∧ p = .compression ∨ i = .hash ∧ p = .color →
      ∃ t, exec i s = .next t ∧
        t = { s with
          color := v, palette := t.palette, params := s.params.set 0 0, pLength := 1, parser := p
          pos := s.pos + 1 } ∧
        t.wordAt .palette k = v ∧
        ∀ x, x / 4 ≠ k → t.byteAt .palette x = s.byteAt .palette x

/-- R88: every other color introducer, ended by BANG or HASH, changes neither the palette nor the color. -/
def Obligations.ColorIntroducerRejected : Prop :=
  ∀ s : State, s.mode ≠ .undecided → s.parser = .color → 1 ≤ s.paletteLength →
    s.paletteLength ≤ s.build.paletteSize → s.pLength ≠ 1 →
    (s.pLength ≠ 5 ∨ (s.param 1 ≠ 1 ∧ s.param 1 ≠ 2) ∨ (s.param 1 = 1 ∧ 360 < (s.param 2).toNat) ∨
      (s.param 1 = 2 ∧ 100 < (s.param 2).toNat) ∨ 100 < (s.param 3).toNat ∨ 100 < (s.param 4).toNat) →
    exec .bang s = .next { s with
      params := s.params.set 0 0, pLength := 1, parser := .compression, pos := s.pos + 1 } ∧
    exec .hash s = .next { s with
      params := s.params.set 0 0, pLength := 1, parser := .color, pos := s.pos + 1 }

/-! Carriage return, band end and the answers -/

/-- R119 and R133: DOLLAR sets the cursor to 4, and in M1 takes the width seen so far into `real_width`. -/
def Obligations.DollarReturnsTheCursor : Prop :=
  ∀ s : State,
    (s.mode = .m1 → exec .dollar s = .next { s with
      realWidth := min (max s.realWidth s.cursor) s.build.maxWidth, cursor := 4, pos := s.pos + 1 }) ∧
    (s.mode = .m2 → exec .dollar s = .next { s with cursor := 4, pos := s.pos + 1 })

/-- R120 and R134 up to the answer: DASH raises the BAND callback with the band's width and waits; `pos` still
indexes the `-` (R164). -/
def Obligations.DashRaisesTheBandCallback : Prop :=
  ∀ (s : State) (w : Nat), w = min (max s.realWidth s.cursor) s.build.maxWidth →
    (s.mode = .m1 → exec .dash s = .next { s with
      realWidth := w, cursor := 4, phase := .waitBand, out := .callback .band (BitVec.ofNat 32 (w - 4)) :: s.out }) ∧
    (s.mode = .m2 → exec .dash s = .next { s with
      phase := .waitBand, out := .callback .band (BitVec.ofNat 32 (s.width - 4)) :: s.out })

/-- The rest of R120 after the answer (R144, R166): 0 clears slots 4..131 for the next band and goes on, anything
else aborts and completes the DECODE without a clear. -/
def Obligations.AnswerToABandInM1 : Prop :=
  ∀ (v : Word) (s : State), s.build.legal → s.phase = .waitBand → s.mode = .m1 → s.width = 0 →
    (v = 0 → ∃ t, exec (.answer v) s = .next t ∧
      t = { s with
        phase := .run, rowbuf := t.rowbuf, clearedWidth := 132, cursor := 4, realWidth := 4
        pos := s.pos + 1, guardEpoch := t.guardEpoch } ∧
      s.painted t 63 4 128 s.fillColor) ∧
    (v ≠ 0 → ∃ t, exec (.answer v) s = .next t ∧
      t = { s with
        phase := .idle, abort := true, cursor := 4, realWidth := 4, out := .done :: s.out
        guardEpoch := t.guardEpoch })

/-- The rest of R134 after the answer (R144, R166): 0 clears slots `4..width-1` and goes on, anything else aborts. -/
def Obligations.AnswerToABandInM2 : Prop :=
  ∀ (v : Word) (s : State), s.phase = .waitBand → s.mode = .m2 → 4 ≤ s.width → s.width ≤ s.build.rowCap →
    (v = 0 → ∃ t, exec (.answer v) s = .next t ∧
      t = { s with
        phase := .run, rowbuf := t.rowbuf, cursor := 4, pos := s.pos + 1, guardEpoch := t.guardEpoch } ∧
      s.painted t 63 4 (s.width - 4) s.fillColor) ∧
    (v ≠ 0 → ∃ t, exec (.answer v) s = .next t ∧
      t = { s with
        phase := .idle, abort := true, cursor := 4, out := .done :: s.out, guardEpoch := t.guardEpoch })

/-- The rest of R108 after the answer (R109, R166): 0 goes on at the trigger byte, anything else aborts. -/
def Obligations.AnswerToTheModeCallback : Prop :=
  ∀ (v : Word) (s : State), s.phase = .waitMode →
    (v = 0 → ∃ t, exec (.answer v) s = .next t ∧ t = { s with phase := .run, guardEpoch := t.guardEpoch }) ∧
    (v ≠ 0 → ∃ t, exec (.answer v) s = .next t ∧
      t = { s with phase := .idle, abort := true, out := .done :: s.out, guardEpoch := t.guardEpoch })

/-! Host commands -/

/-- R148: INIT sets every register for a new image and leaves the arrays, `params[1..]`, `pos`, `end`, `phase` and
`fault`; outside IDLE it is refused with F_BUSY. -/
def Obligations.InitSetsTheRegisters : Prop :=
  ∀ (c f p u : Word) (s : State),
    (s.phase = .idle → exec (.init c f p u) s = .next { s with
      parser := .data, pLength := 1, params := s.params.set 0 0, cursor := 4, color := c, fillColor := f
      paletteLength := min (max p.toNat 1) s.build.paletteSize
      width := 0, height := 0, rNum := 0, rDenom := 0, rWidth := 0, rHeight := 0
      realWidth := 4, clearedWidth := 4, mode := .undecided, level := .undecided
      truncate := decide (u ≠ 0), abort := false, inited := true }) ∧
    (s.phase ≠ .idle → ∃ t, exec (.init c f p u) s = .next t ∧
      s.refusedInto t .busy (.known (.init c f p u)))

/-- R149: two successive INITs with the same arguments leave the same state as one, admitted or refused. -/
def Obligations.InitTwiceIsInitOnce : Prop :=
  ∀ (c f p u : Word) (s : State), ∃ t, exec (.init c f p u) s = .next t ∧ exec (.init c f p u) t = .next t

/-- R150: DECODE checks `inited`, `phase` and its range in this order, does nothing but complete after an abort, and
else writes the sentinel, sets the range and runs. -/
def Obligations.DecodeFollowsItsRule : Prop :=
  ∀ (a e : Word) (s : State),
    (s.inited = false → ∃ t, exec (.decode a e) s = .next t ∧
      s.refusedInto t .notInited (.known (.decode a e))) ∧
    (s.inited = true → s.phase ≠ .idle → ∃ t, exec (.decode a e) s = .next t ∧
      s.refusedInto t .busy (.known (.decode a e))) ∧
    (s.inited = true → s.phase = .idle →
      ¬ (0 ≤ a.toInt ∧ a.toInt ≤ e.toInt ∧ e.toInt ≤ (s.build.chunkSize : Int) - 1) →
      ∃ t, exec (.decode a e) s = .next t ∧ s.refusedInto t .badRange (.known (.decode a e))) ∧
    (s.inited = true → s.phase = .idle → 0 ≤ a.toInt → a.toInt ≤ e.toInt →
      e.toInt ≤ (s.build.chunkSize : Int) - 1 → s.abort = true →
      exec (.decode a e) s = .next { s with phase := .idle, out := .done :: s.out }) ∧
    (s.inited = true → s.phase = .idle → 0 ≤ a.toInt → a.toInt ≤ e.toInt →
      e.toInt ≤ (s.build.chunkSize : Int) - 1 → s.abort = false →
      ∃ t, exec (.decode a e) s = .next t ∧
        t = { s with
          inbuf := t.inbuf, endPos := e.toInt.toNat, pos := a.toInt.toNat, phase := .run
          guardEpoch := t.guardEpoch } ∧
        t.byteAt .inbuf e.toInt.toNat = 0xFF ∧
        ∀ x, x ≠ e.toInt.toNat → t.byteAt .inbuf x = s.byteAt .inbuf x)

/-- R147: CURRENT_WIDTH in each mode, with its refusals; only M1 writes `real_width`. -/
def Obligations.CurrentWidthReportsTheBand : Prop :=
  ∀ (s : State) (w : Nat), w = min (max s.realWidth s.cursor) s.build.maxWidth →
    (s.inited = false → ∃ t, exec .currentWidth s = .next t ∧
      s.refusedInto t .notInited (.known .currentWidth)) ∧
    (s.inited = true → s.phase = .run → ∃ t, exec .currentWidth s = .next t ∧
      s.refusedInto t .busy (.known .currentWidth)) ∧
    (s.inited = true → s.phase ≠ .run →
      (s.mode = .m1 → exec .currentWidth s = .next { s with
        realWidth := w, out := .width (BitVec.ofNat 32 (min (max w 4) s.build.maxWidth - 4)) :: s.out }) ∧
      (s.mode = .m2 → exec .currentWidth s = .next { s with
        out := .width (BitVec.ofNat 32 (s.width - 4)) :: s.out }) ∧
      (s.mode = .undecided → exec .currentWidth s = .next { s with out := .width 0 :: s.out }))

/-- R44, R45, R53: an admitted HOST_READ returns the element and changes nothing; for a guard slot it returns some
word. -/
def Obligations.HostReadReturnsTheElement : Prop :=
  ∀ (sp : Space) (i : Word) (s : State), s.phase ≠ .run → i.toNat < s.build.count sp →
    (sp = .inbuf → exec (.hostRead sp i) s = .next { s with
      out := .readByte (s.byteAt .inbuf i.toNat) :: s.out }) ∧
    (sp = .palette → exec (.hostRead sp i) s = .next { s with
      out := .readWord (s.wordAt .palette i.toNat) :: s.out }) ∧
    (sp = .rowbuf → 4 ≤ i.toNat % s.build.rowStride → exec (.hostRead sp i) s = .next { s with
      out := .readWord (s.wordAt .rowbuf i.toNat) :: s.out }) ∧
    (sp = .rowbuf → i.toNat % s.build.rowStride < 4 → ∃ v, exec (.hostRead sp i) s = .next { s with
      out := .readWord v :: s.out })

/-- R44, R46, R53: an admitted HOST_WRITE writes its element, least significant byte first, and no other byte of any
space. -/
def Obligations.HostWriteWritesTheElement : Prop :=
  ∀ (sp : Space) (i v : Word) (s : State), s.phase = .idle → i.toNat < s.build.count sp →
    ∃ t, exec (.hostWrite sp i v) s = .next t ∧
      t = { s with
        inbuf := t.inbuf, palette := t.palette, rowbuf := t.rowbuf, guardEpoch := t.guardEpoch } ∧
      (∀ j, j < sp.elemBytes → t.byteAt sp (sp.elemBytes * i.toNat + j) = v.byte j) ∧
      (∀ sq x, (sq ≠ sp ∨ x / sp.elemBytes ≠ i.toNat) → t.byteAt sq x = s.byteAt sq x)

/-- R154, R155, R167: the refused cells of the admission table, and an index outside the space (R44). -/
def Obligations.RefusedTransactionsOnlyRecordTheirFault : Prop :=
  ∀ (v i w : Word) (sp : Space) (s : State),
    (s.phase = .idle ∨ s.phase = .run → ∃ t, exec (.answer v) s = .next t ∧
      s.refusedInto t .noCallback (.known (.answer v))) ∧
    (s.phase = .run → ∃ t, exec (.hostRead sp i) s = .next t ∧
      s.refusedInto t .accessInFlight (.known (.hostRead sp i))) ∧
    (s.phase ≠ .idle → ∃ t, exec (.hostWrite sp i w) s = .next t ∧
      s.refusedInto t .accessInFlight (.known (.hostWrite sp i w))) ∧
    (s.phase ≠ .run → s.build.count sp ≤ i.toNat → ∃ t, exec (.hostRead sp i) s = .next t ∧
      s.refusedInto t .badIndex (.known (.hostRead sp i))) ∧
    (s.phase = .idle → s.build.count sp ≤ i.toNat → ∃ t, exec (.hostWrite sp i w) s = .next t ∧
      s.refusedInto t .badIndex (.known (.hostWrite sp i w)))

/-- R41: no step takes a record out of `fault`. -/
def Obligations.FaultsAreNeverCleared : Prop :=
  ∀ s t : State, step s = .next t → ∀ f ∈ s.fault, f ∈ t.fault

/-! Color converters -/

/-- R71, R72: the channel scaling, and the packed word with alpha 0xFF. -/
def Obligations.RgbScalesPercentages : Prop :=
  (∀ c, c ≤ 100 → chan c = (255 * c + 50) / 100 ∧ chan c ≤ 255) ∧
  ∀ r g b, r ≤ 100 → g ≤ 100 → b ≤ 100 →
    (normalizeRgb r g b).toNat = 0xFF * 2 ^ 24 + chan b * 2 ^ 16 + chan g * 2 ^ 8 + chan r

/-- R81: every value either converter returns has alpha 0xFF. -/
def Obligations.ConvertedColorsAreOpaque : Prop :=
  (∀ r g b, (normalizeRgb r g b).byte 3 = 0xFF) ∧ ∀ f h l s, (normalizeHls f h l s).byte 3 = 0xFF

/-- R73: without saturation HLS is the gray of its lightness, in every format. -/
def Obligations.HlsWithoutSaturationIsGray : Prop :=
  ∀ f h l, normalizeHls f h l 0 = normalizeRgb l l l

/-- R79, R74: lightness 0 gives black and 100 white for every hue and saturation in every format, and hue 360 is hue
0; with the examples of R79 under every format, and the inputs of 95_test_vectors.md section 2.3 on which the formats
differ. -/
def Obligations.HlsCornersAndExamples : Prop :=
  (∀ f h s, h ≤ 360 → s ≤ 100 →
    normalizeHls f h 0 s = 0xFF000000 ∧ normalizeHls f h 100 s = 0xFFFFFFFF) ∧
  (∀ f l s, normalizeHls f 360 l s = normalizeHls f 0 l s) ∧
  (∀ f, normalizeHls f 120 50 100 = 0xFF0000FF ∧ normalizeHls f 240 50 100 = 0xFF00FF00 ∧
    normalizeHls f 0 50 100 = 0xFFFF0000) ∧
  normalizeHls .binary32 0 8 25 = 0xFF190F0F ∧ normalizeHls .binary64 0 8 25 = 0xFF1A0F0F ∧
  normalizeHls .exact 0 8 25 = 0xFF1A0F0F ∧ normalizeHls .binary32 0 95 100 = 0xFFFFE6E6 ∧
  normalizeHls .binary64 0 95 100 = 0xFFFFE5E5 ∧ normalizeHls .exact 0 95 100 = 0xFFFFE6E6

/-! Paint kernels and the band controller -/

/-- R90: `put_single` writes the color into slot `col` of the rows whose bit is set, if `col < MAX_WIDTH`, and into no
other slot. -/
def Obligations.PutSinglePaintsOneSlot : Prop :=
  ∀ (s : State) (c : BitVec 6) (w : Word) (col : Nat) (t : State), t = s.putSingle c w col →
    t = { s with rowbuf := t.rowbuf } ∧
    ∀ r i j, r < 6 → i < s.build.rowStride → j < 4 →
      (c.getLsbD r = true ∧ i = col ∧ col < s.build.maxWidth →
        t.byteAt .rowbuf (pixelOffset s.build r i + j) = w.byte j) ∧
      (¬ (c.getLsbD r = true ∧ i = col ∧ col < s.build.maxWidth) →
        t.byteAt .rowbuf (pixelOffset s.build r i + j) = s.byteAt .rowbuf (pixelOffset s.build r i + j))

/-- R91: `put_run` writes the color into slots `col..col+m-1` of the rows whose bit is set, with
`m = min(n, MAX_WIDTH - col)`, and into no other slot. -/
def Obligations.PutRunPaintsItsSlots : Prop :=
  ∀ (s : State) (c : BitVec 6) (w : Word) (n col m : Nat) (t : State), t = s.putRun c w n col →
    m = (if col < s.build.maxWidth then min n (s.build.maxWidth - col) else 0) →
    t = { s with rowbuf := t.rowbuf } ∧
    ∀ r i j, r < 6 → i < s.build.rowStride → j < 4 →
      (c.getLsbD r = true ∧ col ≤ i ∧ i < col + m →
        t.byteAt .rowbuf (pixelOffset s.build r i + j) = w.byte j) ∧
      (¬ (c.getLsbD r = true ∧ col ≤ i ∧ i < col + m) →
        t.byteAt .rowbuf (pixelOffset s.build r i + j) = s.byteAt .rowbuf (pixelOffset s.build r i + j))

/-- R94: `fill_row_range` writes `fill_color` into slots `lo..hi-1` of all six rows and into no other slot. -/
def Obligations.FillRowRangeFillsItsSlots : Prop :=
  ∀ (s : State) (lo hi : Nat) (t : State), 4 ≤ lo → lo ≤ hi → hi ≤ s.build.rowCap →
    t = s.fillRowRange lo hi →
    t = { s with rowbuf := t.rowbuf } ∧
    ∀ r i j, r < 6 → i < s.build.rowStride → j < 4 →
      (lo ≤ i ∧ i < hi → t.byteAt .rowbuf (pixelOffset s.build r i + j) = s.fillColor.byte j) ∧
      (¬ (lo ≤ i ∧ i < hi) →
        t.byteAt .rowbuf (pixelOffset s.build r i + j) = s.byteAt .rowbuf (pixelOffset s.build r i + j))

/-- R141: `clear_upto` raises the frontier in steps of 128 until it reaches the limit, filling the slots it passes and
no other. -/
def Obligations.ClearUptoReachesItsLimit : Prop :=
  ∀ (s : State) (limit : Nat) (t : State), limit ≤ s.build.maxWidth → s.clearedWidth ≤ s.build.rowCap →
    t = s.clearUpto limit →
    t = { s with rowbuf := t.rowbuf, clearedWidth := clearedAfter s.build s.clearedWidth limit } ∧
    limit ≤ t.clearedWidth ∧
    ∀ r i j, r < 6 → i < s.build.rowStride → j < 4 →
      (s.clearedWidth ≤ i ∧ i < t.clearedWidth →
        t.byteAt .rowbuf (pixelOffset s.build r i + j) = s.fillColor.byte j) ∧
      (¬ (s.clearedWidth ≤ i ∧ i < t.clearedWidth) →
        t.byteAt .rowbuf (pixelOffset s.build r i + j) = s.byteAt .rowbuf (pixelOffset s.build r i + j))

/-- R92: for a group of four slots that fits, `put_wide` leaves every byte of the rows as four `put_single` do. -/
def Obligations.PutWideIsFourPutSingles : Prop :=
  ∀ (s : State) (agg color : Word) (col : Nat) (t u : State), col % 4 = 0 → col + 4 ≤ s.build.maxWidth →
    t = s.putWide agg color col →
    u = (((s.putSingle ((agg.byte 0).setWidth 6) color col).putSingle ((agg.byte 1).setWidth 6) color
      (col + 1)).putSingle ((agg.byte 2).setWidth 6) color (col + 2)).putSingle ((agg.byte 3).setWidth 6) color
      (col + 3) →
    t = { s with rowbuf := t.rowbuf } ∧ u = { s with rowbuf := u.rowbuf } ∧
    ∀ r i j, r < 6 → i < s.build.rowStride → j < 4 →
      t.byteAt .rowbuf (pixelOffset s.build r i + j) = u.byteAt .rowbuf (pixelOffset s.build r i + j)

/-! Invariants and rules of the whole machine -/

/-- The invariant holds after power-on, whatever the registers hold that the spec leaves unspecified (R173); the
model's own reset state, whose values log 3 chooses, is one such state. -/
def Obligations.PowerOnMeetsTheInvariant : Prop :=
  (∀ s : State, s.build.legal → s.params.length = s.build.paramSize → s.inited = false → s.phase = .idle →
    s.fault = [] → s.inbuf = [] → s.palette = [] → s.rowbuf = [] → s.Inv) ∧ State.reset.Inv

/-- R42 with the legal combinations: every step keeps the invariant. -/
def Obligations.StepKeepsTheInvariant : Prop :=
  ∀ s t : State, s.Inv → step s = .next t → t.Inv

/-- R160: in a state of the invariant the machine always completes its step; it never stops in a fault or a
refusal. -/
def Obligations.InvariantStatesNeverStop : Prop :=
  ∀ s : State, s.Inv → completes s

/-- The model's own stops (log 13, log 14; not the spec's): combinations R16 excludes stop a byte that no rule covers,
and a palette index that is no register stops a color resolution. -/
def Obligations.ExcludedStatesStop : Prop :=
  ∀ (i : Instr) (c : BitVec 6) (v : Word) (s : State),
    (commits i = true → s.mode = .undecided → s.parser = .compression ∨ s.parser = .color →
      exec i s = .fault .noRule) ∧
    (s.mode ≠ .undecided → s.parser = .attr → exec (.sixel c) s = .fault .noRule) ∧
    (s.phase = .waitBand → s.mode = .undecided → exec (.answer v) s = .fault .noRule) ∧
    (s.phase = .waitBand → s.mode = .m2 → s.build.rowCap < s.width → exec (.answer 0) s = .fault .noSuchElement) ∧
    (s.mode ≠ .undecided → s.parser = .color → s.paletteLength = 0 ∨ s.build.paletteSize < s.paletteLength →
      i = .bang ∨ i = .hash ∨ i = .sixel c → exec i s = .fault .noSuchElement)

/-- R5 to R8: no step changes the build parameters. -/
def Obligations.BuildParametersNeverChange : Prop :=
  ∀ s t : State, step s = .next t → t.build = s.build

/-- R28: `abort` is set only by a non-zero answer to a callback and cleared only by INIT, and while it is set DECODE
has no effect but its completion. -/
def Obligations.AbortIsSticky : Prop :=
  (∀ (i : Instr) (s t : State), exec i s = .next t → s.abort = false → t.abort = true →
    ∃ v, i = .answer v ∧ v ≠ 0 ∧ (s.phase = .waitMode ∨ s.phase = .waitBand)) ∧
  (∀ (i : Instr) (s t : State), exec i s = .next t → s.abort = true → t.abort = false →
    ∃ c f p u, i = .init c f p u) ∧
  (∀ (a e : Word) (s t : State), s.abort = true → exec (.decode a e) s = .next t →
    t = { s with out := t.out, fault := t.fault })

/-- R25, R104: only INIT makes the mode Undecided, and only a committing byte in mode Undecided decides it. -/
def Obligations.ModeChangesOnlyByInitAndCommit : Prop :=
  ∀ (i : Instr) (s t : State), exec i s = .next t → t.mode ≠ s.mode →
    (∃ c f p u, i = .init c f p u) ∧ t.mode = .undecided ∨
    commits i = true ∧ s.mode = .undecided ∧ t.mode ≠ .undecided

/-- R31: the block never writes a guard slot; only a HOST_WRITE can. -/
def Obligations.BlockNeverWritesGuardSlots : Prop :=
  ∀ (i : Instr) (s t : State), s.Inv → s.inited = true → exec i s = .next t →
    (∀ sp k v, i ≠ .hostWrite sp k v) →
    ∀ r g j, r < 6 → g < 4 → j < 4 →
      t.byteAt .rowbuf (pixelOffset s.build r g + j) = s.byteAt .rowbuf (pixelOffset s.build r g + j)

/-- R43, R49, R83, R84: INBUF changes only by DECODE and HOST_WRITE, the palette only by HOST_WRITE and by a SIXEL, BANG
or HASH that ends an assigning color introducer in M1 or M2. -/
def Obligations.ArraysChangeOnlyByTheirWriters : Prop :=
  ∀ (i : Instr) (s t : State), exec i s = .next t → (∀ sp k v, i ≠ .hostWrite sp k v) →
    ((∀ a e, i ≠ .decode a e) → t.inbuf = s.inbuf) ∧
    (¬ ((i = .bang ∨ i = .hash ∨ ∃ c, i = .sixel c) ∧ s.mode ≠ .undecided ∧ s.parser = .color ∧
      s.isAssign = true) → t.palette = s.palette)

/-- R152: every byte step and every answer of a DECODE in flight comes nearer to its end or completes it. The byte
steps are those before which no transaction is due; the answers may already stand in the port. -/
def Obligations.EveryStepOfADecodeMakesProgress : Prop :=
  ∀ s : State, s.Inv →
    (s.phase = .run → (∀ w, s.port.head? ≠ some ⟨.afterBytes 0, w⟩) → ∃ t, step s = .next t ∧
      (t.phase = .idle ∨ t.remaining < s.remaining)) ∧
    (s.phase = .waitMode ∨ s.phase = .waitBand → ∀ v, ∃ t, exec (.answer v) s = .next t ∧
      (t.phase = .idle ∨ t.remaining < s.remaining))

/-- R151, R158: what a byte does depends neither on `pos`, nor on `end`, nor on what INBUF holds: laid elsewhere, the
same byte has the same effect and moves `pos` by the same amount, by one or not at all. -/
def Obligations.ByteRulesReadNoPosition : Prop :=
  ∀ (b : Byte) (s t : State) (p e : Nat) (m : Mem), exec (decodeByte b) s = .next t →
    t.inbuf = s.inbuf ∧ t.endPos = s.endPos ∧ ∃ k, k ≤ 1 ∧ t.pos = s.pos + k ∧
      exec (decodeByte b) { s with pos := p, endPos := e, inbuf := m } =
        .next { t with pos := p + k, endPos := e, inbuf := m }

/-- R123, R137: every byte of the payload of an emitted band has been written since power-on, by a clear or a paint.
The color painted may itself be the unspecified value of a palette register that nothing wrote (R89). -/
def Obligations.BandPayloadIsWritten : Prop :=
  ∀ s : State, s.Inv → s.inited = true → s.mode ≠ .undecided →
    ∃ t w, exec .dash s = .next t ∧ t.out = .callback .band (BitVec.ofNat 32 w) :: s.out ∧ t.rowbuf = s.rowbuf ∧
      4 + w ≤ s.build.rowCap ∧
      ∀ r x j, r < 6 → x < w → j < 4 → (t.rowbuf.read? (pixelOffset s.build r (4 + x) + j)).isSome = true

/-- R153, R157: without an answer to come the block stays in the same wait, frozen: it completes every step, and only
the pending transactions, what was sent, the recorded faults and (by CURRENT_WIDTH, R147) `real_width` change. -/
def Obligations.StuckStatesStayStuck : Prop :=
  ∀ s : State, s.stuck → ∃ t, step s = .next t ∧ t.stuck ∧
    t = { s with port := t.port, out := t.out, fault := t.fault, realWidth := t.realWidth }

/-- R70, R153, R162: a callback event is a BAND, of kind 1, raised by DASH in M1 or M2 into WAIT_BAND, or a MODE, of kind
2, raised by a commit into WAIT_MODE with the code of the committed mode; and no wait is entered without its event. -/
def Obligations.CallbacksCarryTheirKind : Prop :=
  ∀ (i : Instr) (s t : State), exec i s = .next t →
    (∀ k a, t.out = .callback k a :: s.out →
      k = .band ∧ k.code = 1 ∧ t.phase = .waitBand ∧ i = .dash ∧ s.mode ≠ .undecided ∨
      k = .mode ∧ k.code = 2 ∧ t.phase = .waitMode ∧ commits i = true ∧ s.mode = .undecided ∧
        (a = 1 ∧ t.mode = .m1 ∨ a = 2 ∧ t.mode = .m2)) ∧
    (t.phase = .waitMode ∨ t.phase = .waitBand → t.phase = s.phase ∨ ∃ k a, t.out = .callback k a :: s.out)
end

