-- ==== Sys2Proof/Laws/Color.lean ====
section
/-! SUPPORT. What the HLS converter does with the same lightness term on both sides: no channel depends on the hue. -/

namespace Sys2Proof.Machine

/-- A zero of a format: the rounded formats have one representation of it, the exact one a numerator 0. -/
def Ratio.isZeroIn (f : HlsFormat) (z : Ratio) : Prop := z.num = 0 ∧ 0 < z.den ∧ (f = .exact ∨ z = ⟨0, 1⟩)

theorem Ratio.roundTo_den_pos (p : Nat) (emin : Int) (x : Ratio) : 0 < (x.roundTo p emin).den := by
  unfold Ratio.roundTo
  split
  · exact Nat.one_pos
  · exact Nat.pow_pos (by decide)

/-- Rounding keeps the denominator positive. -/
theorem roundIn_den_pos (f : HlsFormat) (x : Ratio) (h : 0 < x.den) : 0 < (roundIn f x).den := by
  cases f
  · exact Ratio.roundTo_den_pos _ _ _
  · exact Ratio.roundTo_den_pos _ _ _
  · exact h

/-- Rounding a zero gives the zero of the format. -/
theorem roundIn_isZero (f : HlsFormat) (x : Ratio) (h : x.num = 0) (hd : 0 < x.den) : (roundIn f x).isZeroIn f := by
  cases f
  · exact ⟨by simp [roundIn, Ratio.roundTo, h], roundIn_den_pos _ _ hd, .inr (by simp [roundIn, Ratio.roundTo, h])⟩
  · exact ⟨by simp [roundIn, Ratio.roundTo, h], roundIn_den_pos _ _ hd, .inr (by simp [roundIn, Ratio.roundTo, h])⟩
  · exact ⟨h, hd, .inl rfl⟩

theorem fpAdd_den_pos (f : HlsFormat) (x y : Ratio) (hx : 0 < x.den) (hy : 0 < y.den) : 0 < (fpAdd f x y).den :=
  roundIn_den_pos f _ (Nat.mul_pos hx hy)

theorem fpSub_den_pos (f : HlsFormat) (x y : Ratio) (hx : 0 < x.den) (hy : 0 < y.den) : 0 < (fpSub f x y).den :=
  roundIn_den_pos f _ (Nat.mul_pos hx hy)

theorem fpMul_den_pos (f : HlsFormat) (x y : Ratio) (hx : 0 < x.den) (hy : 0 < y.den) : 0 < (fpMul f x y).den :=
  roundIn_den_pos f _ (Nat.mul_pos hx hy)

theorem fpDiv_den_pos (f : HlsFormat) (x y : Ratio) (hx : 0 < x.den) (hy : 0 < y.num) : 0 < (fpDiv f x y).den :=
  roundIn_den_pos f _ (Nat.mul_pos hx (by omega))

/-- A product with a zero is a zero. -/
theorem fpMul_isZero (f : HlsFormat) (z y : Ratio) (hz : z.isZeroIn f) (hy : 0 < y.den) : (fpMul f z y).isZeroIn f :=
  roundIn_isZero f _ (by simp [Ratio.mul, hz.1]) (Nat.mul_pos hz.2.1 hy)

theorem hueWrap_den_pos (f : HlsFormat) (c : Ratio) (hc : 0 < c.den) : 0 < (hueWrap f c).den := by
  unfold hueWrap
  have h1 : 0 < (if c.lt (Ratio.ofNat 0) then fpAdd f c (Ratio.ofNat 1) else c).den := by
    split
    · exact fpAdd_den_pos f _ _ hc Nat.one_pos
    · exact hc
  simp only
  generalize (if c.lt (Ratio.ofNat 0) then fpAdd f c (Ratio.ofNat 1) else c) = x at h1 ⊢
  split
  · exact fpSub_den_pos f _ _ h1 Nat.one_pos
  · exact h1

/-- In exact arithmetic a zero fraction is the byte 0 (R78). -/
theorem channelByte_exact_zero (z : Ratio) (h : z.num = 0) : channelByte .exact z = 0 := by
  have e : (fpAdd .exact (fpMul .exact z (Ratio.ofNat 255)) ⟨1, 2⟩).floor = 0 := by
    simp only [fpAdd, fpMul, roundIn, Ratio.add, Ratio.mul, Ratio.floor, Ratio.ofNat, h]
    simp
    rcases Nat.eq_zero_or_pos z.den with h | h
    · simp [h]
    · have : (z.den : Int) / (z.den * 2) = 0 := Int.ediv_eq_zero_of_lt (by omega) (by omega)
      omega
  rw [channelByte, e]; rfl

/-- In exact arithmetic the fraction 1 is the byte 255 (R78). -/
theorem channelByte_exact_one (z : Ratio) (h : z.num = z.den) (hd : 0 < z.den) : channelByte .exact z = 255 := by
  have e : (fpAdd .exact (fpMul .exact z (Ratio.ofNat 255)) ⟨1, 2⟩).floor = 255 := by
    simp only [fpAdd, fpMul, roundIn, Ratio.add, Ratio.mul, Ratio.floor, Ratio.ofNat, h]
    have e1 : (z.den : Int) * (255 : Nat) * (2 : Nat) + 1 * ((z.den * 1 : Nat) : Int) = z.den * 511 := by
      push_cast; ring
    have e2 : ((z.den * 1 * 2 : Nat) : Int) = z.den * 2 := by push_cast; ring
    rw [e1, e2, Int.mul_ediv_mul_of_pos _ _ (by omega)]
    rfl
  rw [channelByte, e]; rfl

/-- Where the two lightness terms differ by a zero and each of the values the helper can pick has the byte `b`, the
channel is `b` at every hue (R76, R78). -/
theorem hueToChannel_const (f : HlsFormat) (t1 t2 c : Ratio) (b : Byte) (hc : 0 < c.den)
    (hd : (fpSub f t1 t2).isZeroIn f) (h1 : channelByte f t1 = b) (h2 : channelByte f t2 = b)
    (hz : ∀ z, z.isZeroIn f → channelByte f (fpAdd f t2 z) = b) : hueToChannel f t1 t2 c = b := by
  have hw := hueWrap_den_pos f c hc
  simp only [hueToChannel]
  split
  · exact hz _ (fpMul_isZero f _ _ (fpMul_isZero f _ _ hd Nat.one_pos) hw)
  · split
    · exact h1
    · split
      · exact hz _ (fpMul_isZero f _ _ hd (fpSub_den_pos f _ _ Nat.one_pos (fpMul_den_pos f _ _ hw Nat.one_pos)))
      · exact h2

theorem hueFraction_den_pos (f : HlsFormat) (h : Nat) : 0 < (hueFraction f h).den :=
  fpDiv_den_pos f _ _ Nat.one_pos (by decide)

/-- The packed form of `hueToChannel_const`: all three channels are `b` (R77, R79). -/
theorem hlsChannels_const (f : HlsFormat) (t : Ratio × Ratio) (h : Nat) (b : Byte)
    (hd : (fpSub f t.1 t.2).isZeroIn f) (h1 : channelByte f t.1 = b) (h2 : channelByte f t.2 = b)
    (hz : ∀ z, z.isZeroIn f → channelByte f (fpAdd f t.2 z) = b) :
    hlsChannels f t (hueFraction f h) = packOpaque b b b := by
  have hh := hueFraction_den_pos f h
  have ht : 0 < (fpDiv f (Ratio.ofNat 1) (Ratio.ofNat 3)).den := fpDiv_den_pos f _ _ Nat.one_pos (by decide)
  simp only [hlsChannels]
  rw [hueToChannel_const f t.1 t.2 _ b (fpAdd_den_pos f _ _ hh ht) hd h1 h2 hz,
    hueToChannel_const f t.1 t.2 _ b hh hd h1 h2 hz,
    hueToChannel_const f t.1 t.2 _ b (fpSub_den_pos f _ _ hh ht) hd h1 h2 hz]

end Sys2Proof.Machine
end

