-- ==== Sys2Proof/Laws/Memory.lean ====
section
/-! SUPPORT. The laws of the arrays: what a byte reads as after a write, and that a write keeps the canonical
form. -/

namespace Sys2Proof.Machine

/-- The range test of `dropRun`, as a proposition. -/
theorem Mem.inRange_eq (a x e : Nat) : (Nat.ble a x && Nat.blt x e) = decide (a ≤ x ∧ x < e) := by
  rw [Bool.eq_iff_iff]; simp

theorem Mem.read?_run (bs : List Byte) (a x : Nat) (m : Mem) :
    Mem.read? (Mem.run a bs m) x = if a ≤ x ∧ x < a + bs.length then bs[x - a]? else Mem.read? m x := by
  induction bs generalizing a with
  | nil => simp [Mem.run]
  | cons b bs ih =>
    rw [Mem.run, Mem.read?, ih, List.length_cons]
    by_cases h : a = x
    · subst h; simp
    · by_cases h' : a ≤ x
      · have e : x - a = (x - (a + 1)) + 1 := by omega
        rw [if_neg h, e, List.getElem?_cons_succ]
        by_cases h2 : x < a + (bs.length + 1)
        · rw [if_pos (by omega), if_pos (by omega)]
        · rw [if_neg (by omega), if_neg (by omega)]
      · rw [if_neg h, if_neg (by omega), if_neg (by omega)]

theorem Mem.read?_dropRun (a e x : Nat) (m : Mem) (h : x < a ∨ e ≤ x) :
    Mem.read? (Mem.dropRun a e m) x = Mem.read? m x := by
  induction m with
  | nil => rfl
  | cons c m ih =>
    rw [Mem.dropRun, Mem.inRange_eq]
    by_cases hc : a ≤ c.1 ∧ c.1 < e
    · have h1 : c.1 ≠ x := by omega
      rw [decide_eq_true hc, cond_true, ih, Mem.read?, if_neg h1]
    · rw [decide_eq_false hc, cond_false]

/-- What a byte reads as after a write: the written byte inside the run, the old one outside. -/
theorem Mem.read?_write (m : Mem) (a : Nat) (bs : List Byte) (x : Nat) :
    (m.write a bs).read? x = if a ≤ x ∧ x < a + bs.length then bs[x - a]? else m.read? x := by
  induction m with
  | nil => rw [Mem.write, Mem.read?_run]
  | cons c m ih =>
    rw [Mem.write]
    by_cases hc : c.1 < a
    · have h1 : Nat.blt c.1 a = true := by simpa using hc
      rw [h1, cond_true, Mem.read?, ih, Mem.read?]
      by_cases hx : c.1 = x
      · rw [if_pos hx, if_neg (by omega), if_pos hx]
      · rw [if_neg hx, if_neg hx]
    · have h1 : Nat.blt c.1 a = false := by rw [← Bool.not_eq_true, Nat.blt_eq]; exact hc
      rw [h1, cond_false, Mem.read?_run]
      by_cases hx : a ≤ x ∧ x < a + bs.length
      · rw [if_pos hx, if_pos hx]
      · rw [if_neg hx, if_neg hx, Mem.read?_dropRun _ _ _ _ (by omega)]

/-- The canonical form says that the offsets rise strictly. -/
theorem Mem.wf_iff (m : Mem) : m.wf = true ↔ m.Pairwise (fun c d => c.1 < d.1) := by
  induction m with
  | nil => simp [Mem.wf]
  | cons c m ih =>
    cases m with
    | nil => simp [Mem.wf]
    | cons d m =>
      rw [Mem.wf, Bool.and_eq_true, ih, decide_eq_true_iff, List.pairwise_cons (a := c)]
      constructor
      · rintro ⟨h1, h2⟩
        refine ⟨fun e he => ?_, h2⟩
        rcases List.mem_cons.1 he with rfl | he
        · exact h1
        · exact Nat.lt_trans h1 ((List.pairwise_cons.1 h2).1 e he)
      · rintro ⟨h1, h2⟩
        exact ⟨h1 d (by simp), h2⟩

theorem Mem.mem_run (bs : List Byte) (a : Nat) (m : Mem) (c : Host.Cell) (h : c ∈ Mem.run a bs m) :
    (a ≤ c.1 ∧ c.1 < a + bs.length) ∨ c ∈ m := by
  induction bs generalizing a with
  | nil => exact .inr h
  | cons b bs ih =>
    rcases List.mem_cons.1 h with rfl | h
    · simp
    · rcases ih (a + 1) h with h | h
      · left; simp; omega
      · exact .inr h

theorem Mem.mem_dropRun (a e : Nat) (m : Mem) (c : Host.Cell) (h : c ∈ Mem.dropRun a e m) : c ∈ m := by
  induction m with
  | nil => exact h
  | cons d m ih =>
    rw [Mem.dropRun] at h
    cases hd : (Nat.ble a d.1 && Nat.blt d.1 e) <;> rw [hd] at h
    · exact h
    · exact List.mem_cons_of_mem _ (ih h)

theorem Mem.mem_write (m : Mem) (a : Nat) (bs : List Byte) (c : Host.Cell) (h : c ∈ Mem.write m a bs) :
    (a ≤ c.1 ∧ c.1 < a + bs.length) ∨ c ∈ m := by
  induction m with
  | nil => exact Mem.mem_run bs a [] c h
  | cons d m ih =>
    rw [Mem.write] at h
    cases hd : Nat.blt d.1 a <;> rw [hd] at h
    · rcases Mem.mem_run bs a _ c h with h | h
      · exact .inl h
      · exact .inr (Mem.mem_dropRun _ _ _ _ h)
    · rcases List.mem_cons.1 h with rfl | h
      · simp
      · rcases ih h with h | h
        · exact .inl h
        · exact .inr (List.mem_cons_of_mem _ h)

theorem Mem.run_pairwise (bs : List Byte) (a : Nat) (m : Mem)
    (hm : m.Pairwise (fun c d => c.1 < d.1)) (h : ∀ c ∈ m, a + bs.length ≤ c.1) :
    (Mem.run a bs m).Pairwise (fun c d => c.1 < d.1) := by
  induction bs generalizing a with
  | nil => exact hm
  | cons b bs ih =>
    have h' : ∀ c ∈ m, a + 1 + bs.length ≤ c.1 := fun c hc => by
      have := h c hc; simp at this; omega
    rw [Mem.run, List.pairwise_cons]
    refine ⟨fun c hc => ?_, ih (a + 1) h'⟩
    rcases Mem.mem_run bs (a + 1) m c hc with hc | hc
    · simp; omega
    · have := h' c hc; simp; omega

theorem Mem.dropRun_pairwise (a e : Nat) (m : Mem) (hm : m.Pairwise (fun c d => c.1 < d.1))
    (h : ∀ c ∈ m, a ≤ c.1) :
    (Mem.dropRun a e m).Pairwise (fun c d => c.1 < d.1) ∧ ∀ c ∈ Mem.dropRun a e m, e ≤ c.1 := by
  induction m with
  | nil => simp [Mem.dropRun]
  | cons d m ih =>
    rw [Mem.dropRun, Mem.inRange_eq]
    have hd := h d (by simp)
    have hp := List.pairwise_cons.1 hm
    by_cases hc : d.1 < e
    · rw [decide_eq_true ⟨hd, hc⟩, cond_true]
      exact ih hp.2 (fun c hc => h c (List.mem_cons_of_mem _ hc))
    · rw [decide_eq_false (by omega), cond_false]
      refine ⟨hm, fun c hcm => ?_⟩
      rcases List.mem_cons.1 hcm with rfl | hcm
      · omega
      · have := hp.1 c hcm; omega

theorem Mem.write_pairwise (m : Mem) (a : Nat) (bs : List Byte) (hm : m.Pairwise (fun c d => c.1 < d.1)) :
    (m.write a bs).Pairwise (fun c d => c.1 < d.1) := by
  induction m with
  | nil => exact Mem.run_pairwise bs a [] .nil (by simp)
  | cons d m ih =>
    have hp := List.pairwise_cons.1 hm
    rw [Mem.write]
    cases hd : Nat.blt d.1 a
    · have h0 : a ≤ d.1 := by
        rw [← Bool.not_eq_true, Nat.blt_eq] at hd; omega
      have := Mem.dropRun_pairwise a (a + bs.length) (d :: m) hm (fun c hc => by
        rcases List.mem_cons.1 hc with rfl | hc
        · exact h0
        · have := hp.1 c hc; omega)
      exact Mem.run_pairwise bs a _ this.1 this.2
    · have h0 : d.1 < a := by simpa using hd
      rw [cond_true, List.pairwise_cons]
      refine ⟨fun c hc => ?_, ih hp.2⟩
      rcases Mem.mem_write m a bs c hc with hc | hc
      · omega
      · exact hp.1 c hc

/-- A write keeps the canonical form. -/
theorem Mem.wf_write (m : Mem) (a : Nat) (bs : List Byte) (h : m.wf = true) : (m.write a bs).wf = true := by
  rw [Mem.wf_iff] at *
  exact Mem.write_pairwise m a bs h

/-- A write inside the space keeps every listed offset inside it. -/
theorem Mem.below_write (m : Mem) (a n : Nat) (bs : List Byte) (h : m.below n = true)
    (hn : a + bs.length ≤ n ∨ bs = []) : (m.write a bs).below n = true := by
  simp only [Mem.below, List.all_eq_true, decide_eq_true_eq] at *
  intro c hc
  rcases Mem.mem_write m a bs c hc with hc | hc
  · rcases hn with hn | hn
    · omega
    · subst hn; simp at hc; omega
  · exact h c hc

end Sys2Proof.Machine
end

