-- ==== Sys2Proof/Laws/State.lean ====
section
/-! SUPPORT. What each named update leaves in each field of State, one lemma per field per update. -/

namespace Sys2Proof.Machine

variable (s : State)

/-! `State.setParam` -/

@[simp] theorem State.setParam_build (i : Nat) (v : Word) : (s.setParam i v).build = s.build := rfl
@[simp] theorem State.setParam_parser (i : Nat) (v : Word) : (s.setParam i v).parser = s.parser := rfl
@[simp] theorem State.setParam_params (i : Nat) (v : Word) : (s.setParam i v).params = s.params.set i v := rfl
@[simp] theorem State.setParam_pLength (i : Nat) (v : Word) : (s.setParam i v).pLength = s.pLength := rfl
@[simp] theorem State.setParam_cursor (i : Nat) (v : Word) : (s.setParam i v).cursor = s.cursor := rfl
@[simp] theorem State.setParam_color (i : Nat) (v : Word) : (s.setParam i v).color = s.color := rfl
@[simp] theorem State.setParam_height (i : Nat) (v : Word) : (s.setParam i v).height = s.height := rfl
@[simp] theorem State.setParam_rNum (i : Nat) (v : Word) : (s.setParam i v).rNum = s.rNum := rfl
@[simp] theorem State.setParam_rDenom (i : Nat) (v : Word) : (s.setParam i v).rDenom = s.rDenom := rfl
@[simp] theorem State.setParam_rWidth (i : Nat) (v : Word) : (s.setParam i v).rWidth = s.rWidth := rfl
@[simp] theorem State.setParam_rHeight (i : Nat) (v : Word) : (s.setParam i v).rHeight = s.rHeight := rfl
@[simp] theorem State.setParam_mode (i : Nat) (v : Word) : (s.setParam i v).mode = s.mode := rfl
@[simp] theorem State.setParam_level (i : Nat) (v : Word) : (s.setParam i v).level = s.level := rfl
@[simp] theorem State.setParam_truncate (i : Nat) (v : Word) : (s.setParam i v).truncate = s.truncate := rfl
@[simp] theorem State.setParam_abort (i : Nat) (v : Word) : (s.setParam i v).abort = s.abort := rfl
@[simp] theorem State.setParam_paletteLength (i : Nat) (v : Word) : (s.setParam i v).paletteLength = s.paletteLength := rfl
@[simp] theorem State.setParam_palette (i : Nat) (v : Word) : (s.setParam i v).palette = s.palette := rfl
@[simp] theorem State.setParam_rowbuf (i : Nat) (v : Word) : (s.setParam i v).rowbuf = s.rowbuf := rfl
@[simp] theorem State.setParam_fillColor (i : Nat) (v : Word) : (s.setParam i v).fillColor = s.fillColor := rfl
@[simp] theorem State.setParam_width (i : Nat) (v : Word) : (s.setParam i v).width = s.width := rfl
@[simp] theorem State.setParam_realWidth (i : Nat) (v : Word) : (s.setParam i v).realWidth = s.realWidth := rfl
@[simp] theorem State.setParam_clearedWidth (i : Nat) (v : Word) : (s.setParam i v).clearedWidth = s.clearedWidth := rfl
@[simp] theorem State.setParam_inbuf (i : Nat) (v : Word) : (s.setParam i v).inbuf = s.inbuf := rfl
@[simp] theorem State.setParam_pos (i : Nat) (v : Word) : (s.setParam i v).pos = s.pos := rfl
@[simp] theorem State.setParam_endPos (i : Nat) (v : Word) : (s.setParam i v).endPos = s.endPos := rfl
@[simp] theorem State.setParam_phase (i : Nat) (v : Word) : (s.setParam i v).phase = s.phase := rfl
@[simp] theorem State.setParam_inited (i : Nat) (v : Word) : (s.setParam i v).inited = s.inited := rfl
@[simp] theorem State.setParam_fault (i : Nat) (v : Word) : (s.setParam i v).fault = s.fault := rfl
@[simp] theorem State.setParam_port (i : Nat) (v : Word) : (s.setParam i v).port = s.port := rfl
@[simp] theorem State.setParam_out (i : Nat) (v : Word) : (s.setParam i v).out = s.out := rfl
@[simp] theorem State.setParam_guardEpoch (i : Nat) (v : Word) : (s.setParam i v).guardEpoch = s.guardEpoch := rfl

/-! `State.resetParams` -/

@[simp] theorem State.resetParams_build : s.resetParams.build = s.build := rfl
@[simp] theorem State.resetParams_parser : s.resetParams.parser = s.parser := rfl
@[simp] theorem State.resetParams_params : s.resetParams.params = s.params.set 0 0 := rfl
@[simp] theorem State.resetParams_pLength : s.resetParams.pLength = 1 := rfl
@[simp] theorem State.resetParams_cursor : s.resetParams.cursor = s.cursor := rfl
@[simp] theorem State.resetParams_color : s.resetParams.color = s.color := rfl
@[simp] theorem State.resetParams_height : s.resetParams.height = s.height := rfl
@[simp] theorem State.resetParams_rNum : s.resetParams.rNum = s.rNum := rfl
@[simp] theorem State.resetParams_rDenom : s.resetParams.rDenom = s.rDenom := rfl
@[simp] theorem State.resetParams_rWidth : s.resetParams.rWidth = s.rWidth := rfl
@[simp] theorem State.resetParams_rHeight : s.resetParams.rHeight = s.rHeight := rfl
@[simp] theorem State.resetParams_mode : s.resetParams.mode = s.mode := rfl
@[simp] theorem State.resetParams_level : s.resetParams.level = s.level := rfl
@[simp] theorem State.resetParams_truncate : s.resetParams.truncate = s.truncate := rfl
@[simp] theorem State.resetParams_abort : s.resetParams.abort = s.abort := rfl
@[simp] theorem State.resetParams_paletteLength : s.resetParams.paletteLength = s.paletteLength := rfl
@[simp] theorem State.resetParams_palette : s.resetParams.palette = s.palette := rfl
@[simp] theorem State.resetParams_rowbuf : s.resetParams.rowbuf = s.rowbuf := rfl
@[simp] theorem State.resetParams_fillColor : s.resetParams.fillColor = s.fillColor := rfl
@[simp] theorem State.resetParams_width : s.resetParams.width = s.width := rfl
@[simp] theorem State.resetParams_realWidth : s.resetParams.realWidth = s.realWidth := rfl
@[simp] theorem State.resetParams_clearedWidth : s.resetParams.clearedWidth = s.clearedWidth := rfl
@[simp] theorem State.resetParams_inbuf : s.resetParams.inbuf = s.inbuf := rfl
@[simp] theorem State.resetParams_pos : s.resetParams.pos = s.pos := rfl
@[simp] theorem State.resetParams_endPos : s.resetParams.endPos = s.endPos := rfl
@[simp] theorem State.resetParams_phase : s.resetParams.phase = s.phase := rfl
@[simp] theorem State.resetParams_inited : s.resetParams.inited = s.inited := rfl
@[simp] theorem State.resetParams_fault : s.resetParams.fault = s.fault := rfl
@[simp] theorem State.resetParams_port : s.resetParams.port = s.port := rfl
@[simp] theorem State.resetParams_out : s.resetParams.out = s.out := rfl
@[simp] theorem State.resetParams_guardEpoch : s.resetParams.guardEpoch = s.guardEpoch := rfl

/-! `State.advanceCursor` -/

@[simp] theorem State.advanceCursor_build (n : Nat) : (s.advanceCursor n).build = s.build := rfl
@[simp] theorem State.advanceCursor_parser (n : Nat) : (s.advanceCursor n).parser = s.parser := rfl
@[simp] theorem State.advanceCursor_params (n : Nat) : (s.advanceCursor n).params = s.params := rfl
@[simp] theorem State.advanceCursor_pLength (n : Nat) : (s.advanceCursor n).pLength = s.pLength := rfl
@[simp] theorem State.advanceCursor_cursor (n : Nat) : (s.advanceCursor n).cursor = min (s.cursor + n) s.build.maxWidth := rfl
@[simp] theorem State.advanceCursor_color (n : Nat) : (s.advanceCursor n).color = s.color := rfl
@[simp] theorem State.advanceCursor_height (n : Nat) : (s.advanceCursor n).height = s.height := rfl
@[simp] theorem State.advanceCursor_rNum (n : Nat) : (s.advanceCursor n).rNum = s.rNum := rfl
@[simp] theorem State.advanceCursor_rDenom (n : Nat) : (s.advanceCursor n).rDenom = s.rDenom := rfl
@[simp] theorem State.advanceCursor_rWidth (n : Nat) : (s.advanceCursor n).rWidth = s.rWidth := rfl
@[simp] theorem State.advanceCursor_rHeight (n : Nat) : (s.advanceCursor n).rHeight = s.rHeight := rfl
@[simp] theorem State.advanceCursor_mode (n : Nat) : (s.advanceCursor n).mode = s.mode := rfl
@[simp] theorem State.advanceCursor_level (n : Nat) : (s.advanceCursor n).level = s.level := rfl
@[simp] theorem State.advanceCursor_truncate (n : Nat) : (s.advanceCursor n).truncate = s.truncate := rfl
@[simp] theorem State.advanceCursor_abort (n : Nat) : (s.advanceCursor n).abort = s.abort := rfl
@[simp] theorem State.advanceCursor_paletteLength (n : Nat) : (s.advanceCursor n).paletteLength = s.paletteLength := rfl
@[simp] theorem State.advanceCursor_palette (n : Nat) : (s.advanceCursor n).palette = s.palette := rfl
@[simp] theorem State.advanceCursor_rowbuf (n : Nat) : (s.advanceCursor n).rowbuf = s.rowbuf := rfl
@[simp] theorem State.advanceCursor_fillColor (n : Nat) : (s.advanceCursor n).fillColor = s.fillColor := rfl
@[simp] theorem State.advanceCursor_width (n : Nat) : (s.advanceCursor n).width = s.width := rfl
@[simp] theorem State.advanceCursor_realWidth (n : Nat) : (s.advanceCursor n).realWidth = s.realWidth := rfl
@[simp] theorem State.advanceCursor_clearedWidth (n : Nat) : (s.advanceCursor n).clearedWidth = s.clearedWidth := rfl
@[simp] theorem State.advanceCursor_inbuf (n : Nat) : (s.advanceCursor n).inbuf = s.inbuf := rfl
@[simp] theorem State.advanceCursor_pos (n : Nat) : (s.advanceCursor n).pos = s.pos := rfl
@[simp] theorem State.advanceCursor_endPos (n : Nat) : (s.advanceCursor n).endPos = s.endPos := rfl
@[simp] theorem State.advanceCursor_phase (n : Nat) : (s.advanceCursor n).phase = s.phase := rfl
@[simp] theorem State.advanceCursor_inited (n : Nat) : (s.advanceCursor n).inited = s.inited := rfl
@[simp] theorem State.advanceCursor_fault (n : Nat) : (s.advanceCursor n).fault = s.fault := rfl
@[simp] theorem State.advanceCursor_port (n : Nat) : (s.advanceCursor n).port = s.port := rfl
@[simp] theorem State.advanceCursor_out (n : Nat) : (s.advanceCursor n).out = s.out := rfl
@[simp] theorem State.advanceCursor_guardEpoch (n : Nat) : (s.advanceCursor n).guardEpoch = s.guardEpoch := rfl

/-! `State.updateRealWidth` -/

@[simp] theorem State.updateRealWidth_build : s.updateRealWidth.build = s.build := rfl
@[simp] theorem State.updateRealWidth_parser : s.updateRealWidth.parser = s.parser := rfl
@[simp] theorem State.updateRealWidth_params : s.updateRealWidth.params = s.params := rfl
@[simp] theorem State.updateRealWidth_pLength : s.updateRealWidth.pLength = s.pLength := rfl
@[simp] theorem State.updateRealWidth_cursor : s.updateRealWidth.cursor = s.cursor := rfl
@[simp] theorem State.updateRealWidth_color : s.updateRealWidth.color = s.color := rfl
@[simp] theorem State.updateRealWidth_height : s.updateRealWidth.height = s.height := rfl
@[simp] theorem State.updateRealWidth_rNum : s.updateRealWidth.rNum = s.rNum := rfl
@[simp] theorem State.updateRealWidth_rDenom : s.updateRealWidth.rDenom = s.rDenom := rfl
@[simp] theorem State.updateRealWidth_rWidth : s.updateRealWidth.rWidth = s.rWidth := rfl
@[simp] theorem State.updateRealWidth_rHeight : s.updateRealWidth.rHeight = s.rHeight := rfl
@[simp] theorem State.updateRealWidth_mode : s.updateRealWidth.mode = s.mode := rfl
@[simp] theorem State.updateRealWidth_level : s.updateRealWidth.level = s.level := rfl
@[simp] theorem State.updateRealWidth_truncate : s.updateRealWidth.truncate = s.truncate := rfl
@[simp] theorem State.updateRealWidth_abort : s.updateRealWidth.abort = s.abort := rfl
@[simp] theorem State.updateRealWidth_paletteLength : s.updateRealWidth.paletteLength = s.paletteLength := rfl
@[simp] theorem State.updateRealWidth_palette : s.updateRealWidth.palette = s.palette := rfl
@[simp] theorem State.updateRealWidth_rowbuf : s.updateRealWidth.rowbuf = s.rowbuf := rfl
@[simp] theorem State.updateRealWidth_fillColor : s.updateRealWidth.fillColor = s.fillColor := rfl
@[simp] theorem State.updateRealWidth_width : s.updateRealWidth.width = s.width := rfl
@[simp] theorem State.updateRealWidth_realWidth : s.updateRealWidth.realWidth = min (max s.realWidth s.cursor) s.build.maxWidth := rfl
@[simp] theorem State.updateRealWidth_clearedWidth : s.updateRealWidth.clearedWidth = s.clearedWidth := rfl
@[simp] theorem State.updateRealWidth_inbuf : s.updateRealWidth.inbuf = s.inbuf := rfl
@[simp] theorem State.updateRealWidth_pos : s.updateRealWidth.pos = s.pos := rfl
@[simp] theorem State.updateRealWidth_endPos : s.updateRealWidth.endPos = s.endPos := rfl
@[simp] theorem State.updateRealWidth_phase : s.updateRealWidth.phase = s.phase := rfl
@[simp] theorem State.updateRealWidth_inited : s.updateRealWidth.inited = s.inited := rfl
@[simp] theorem State.updateRealWidth_fault : s.updateRealWidth.fault = s.fault := rfl
@[simp] theorem State.updateRealWidth_port : s.updateRealWidth.port = s.port := rfl
@[simp] theorem State.updateRealWidth_out : s.updateRealWidth.out = s.out := rfl
@[simp] theorem State.updateRealWidth_guardEpoch : s.updateRealWidth.guardEpoch = s.guardEpoch := rfl

/-! `State.advance` -/

@[simp] theorem State.advance_build : s.advance.build = s.build := rfl
@[simp] theorem State.advance_parser : s.advance.parser = s.parser := rfl
@[simp] theorem State.advance_params : s.advance.params = s.params := rfl
@[simp] theorem State.advance_pLength : s.advance.pLength = s.pLength := rfl
@[simp] theorem State.advance_cursor : s.advance.cursor = s.cursor := rfl
@[simp] theorem State.advance_color : s.advance.color = s.color := rfl
@[simp] theorem State.advance_height : s.advance.height = s.height := rfl
@[simp] theorem State.advance_rNum : s.advance.rNum = s.rNum := rfl
@[simp] theorem State.advance_rDenom : s.advance.rDenom = s.rDenom := rfl
@[simp] theorem State.advance_rWidth : s.advance.rWidth = s.rWidth := rfl
@[simp] theorem State.advance_rHeight : s.advance.rHeight = s.rHeight := rfl
@[simp] theorem State.advance_mode : s.advance.mode = s.mode := rfl
@[simp] theorem State.advance_level : s.advance.level = s.level := rfl
@[simp] theorem State.advance_truncate : s.advance.truncate = s.truncate := rfl
@[simp] theorem State.advance_abort : s.advance.abort = s.abort := rfl
@[simp] theorem State.advance_paletteLength : s.advance.paletteLength = s.paletteLength := rfl
@[simp] theorem State.advance_palette : s.advance.palette = s.palette := rfl
@[simp] theorem State.advance_rowbuf : s.advance.rowbuf = s.rowbuf := rfl
@[simp] theorem State.advance_fillColor : s.advance.fillColor = s.fillColor := rfl
@[simp] theorem State.advance_width : s.advance.width = s.width := rfl
@[simp] theorem State.advance_realWidth : s.advance.realWidth = s.realWidth := rfl
@[simp] theorem State.advance_clearedWidth : s.advance.clearedWidth = s.clearedWidth := rfl
@[simp] theorem State.advance_inbuf : s.advance.inbuf = s.inbuf := rfl
@[simp] theorem State.advance_pos : s.advance.pos = s.pos + 1 := rfl
@[simp] theorem State.advance_endPos : s.advance.endPos = s.endPos := rfl
@[simp] theorem State.advance_phase : s.advance.phase = s.phase := rfl
@[simp] theorem State.advance_inited : s.advance.inited = s.inited := rfl
@[simp] theorem State.advance_fault : s.advance.fault = s.fault := rfl
@[simp] theorem State.advance_port : s.advance.port = s.port := rfl
@[simp] theorem State.advance_out : s.advance.out = s.out := rfl
@[simp] theorem State.advance_guardEpoch : s.advance.guardEpoch = s.guardEpoch := rfl

/-! `State.send` -/

@[simp] theorem State.send_build (x : Signal) : (s.send x).build = s.build := rfl
@[simp] theorem State.send_parser (x : Signal) : (s.send x).parser = s.parser := rfl
@[simp] theorem State.send_params (x : Signal) : (s.send x).params = s.params := rfl
@[simp] theorem State.send_pLength (x : Signal) : (s.send x).pLength = s.pLength := rfl
@[simp] theorem State.send_cursor (x : Signal) : (s.send x).cursor = s.cursor := rfl
@[simp] theorem State.send_color (x : Signal) : (s.send x).color = s.color := rfl
@[simp] theorem State.send_height (x : Signal) : (s.send x).height = s.height := rfl
@[simp] theorem State.send_rNum (x : Signal) : (s.send x).rNum = s.rNum := rfl
@[simp] theorem State.send_rDenom (x : Signal) : (s.send x).rDenom = s.rDenom := rfl
@[simp] theorem State.send_rWidth (x : Signal) : (s.send x).rWidth = s.rWidth := rfl
@[simp] theorem State.send_rHeight (x : Signal) : (s.send x).rHeight = s.rHeight := rfl
@[simp] theorem State.send_mode (x : Signal) : (s.send x).mode = s.mode := rfl
@[simp] theorem State.send_level (x : Signal) : (s.send x).level = s.level := rfl
@[simp] theorem State.send_truncate (x : Signal) : (s.send x).truncate = s.truncate := rfl
@[simp] theorem State.send_abort (x : Signal) : (s.send x).abort = s.abort := rfl
@[simp] theorem State.send_paletteLength (x : Signal) : (s.send x).paletteLength = s.paletteLength := rfl
@[simp] theorem State.send_palette (x : Signal) : (s.send x).palette = s.palette := rfl
@[simp] theorem State.send_rowbuf (x : Signal) : (s.send x).rowbuf = s.rowbuf := rfl
@[simp] theorem State.send_fillColor (x : Signal) : (s.send x).fillColor = s.fillColor := rfl
@[simp] theorem State.send_width (x : Signal) : (s.send x).width = s.width := rfl
@[simp] theorem State.send_realWidth (x : Signal) : (s.send x).realWidth = s.realWidth := rfl
@[simp] theorem State.send_clearedWidth (x : Signal) : (s.send x).clearedWidth = s.clearedWidth := rfl
@[simp] theorem State.send_inbuf (x : Signal) : (s.send x).inbuf = s.inbuf := rfl
@[simp] theorem State.send_pos (x : Signal) : (s.send x).pos = s.pos := rfl
@[simp] theorem State.send_endPos (x : Signal) : (s.send x).endPos = s.endPos := rfl
@[simp] theorem State.send_phase (x : Signal) : (s.send x).phase = s.phase := rfl
@[simp] theorem State.send_inited (x : Signal) : (s.send x).inited = s.inited := rfl
@[simp] theorem State.send_fault (x : Signal) : (s.send x).fault = s.fault := rfl
@[simp] theorem State.send_port (x : Signal) : (s.send x).port = s.port := rfl
@[simp] theorem State.send_out (x : Signal) : (s.send x).out = x :: s.out := rfl
@[simp] theorem State.send_guardEpoch (x : Signal) : (s.send x).guardEpoch = s.guardEpoch := rfl

/-! `State.raiseCallback` -/

@[simp] theorem State.raiseCallback_build (k : CallbackKind) (a : Word) : (s.raiseCallback k a).build = s.build := rfl
@[simp] theorem State.raiseCallback_parser (k : CallbackKind) (a : Word) : (s.raiseCallback k a).parser = s.parser := rfl
@[simp] theorem State.raiseCallback_params (k : CallbackKind) (a : Word) : (s.raiseCallback k a).params = s.params := rfl
@[simp] theorem State.raiseCallback_pLength (k : CallbackKind) (a : Word) : (s.raiseCallback k a).pLength = s.pLength := rfl
@[simp] theorem State.raiseCallback_cursor (k : CallbackKind) (a : Word) : (s.raiseCallback k a).cursor = s.cursor := rfl
@[simp] theorem State.raiseCallback_color (k : CallbackKind) (a : Word) : (s.raiseCallback k a).color = s.color := rfl
@[simp] theorem State.raiseCallback_height (k : CallbackKind) (a : Word) : (s.raiseCallback k a).height = s.height := rfl
@[simp] theorem State.raiseCallback_rNum (k : CallbackKind) (a : Word) : (s.raiseCallback k a).rNum = s.rNum := rfl
@[simp] theorem State.raiseCallback_rDenom (k : CallbackKind) (a : Word) : (s.raiseCallback k a).rDenom = s.rDenom := rfl
@[simp] theorem State.raiseCallback_rWidth (k : CallbackKind) (a : Word) : (s.raiseCallback k a).rWidth = s.rWidth := rfl
@[simp] theorem State.raiseCallback_rHeight (k : CallbackKind) (a : Word) : (s.raiseCallback k a).rHeight = s.rHeight := rfl
@[simp] theorem State.raiseCallback_mode (k : CallbackKind) (a : Word) : (s.raiseCallback k a).mode = s.mode := rfl
@[simp] theorem State.raiseCallback_level (k : CallbackKind) (a : Word) : (s.raiseCallback k a).level = s.level := rfl
@[simp] theorem State.raiseCallback_truncate (k : CallbackKind) (a : Word) : (s.raiseCallback k a).truncate = s.truncate := rfl
@[simp] theorem State.raiseCallback_abort (k : CallbackKind) (a : Word) : (s.raiseCallback k a).abort = s.abort := rfl
@[simp] theorem State.raiseCallback_paletteLength (k : CallbackKind) (a : Word) : (s.raiseCallback k a).paletteLength = s.paletteLength := rfl
@[simp] theorem State.raiseCallback_palette (k : CallbackKind) (a : Word) : (s.raiseCallback k a).palette = s.palette := rfl
@[simp] theorem State.raiseCallback_rowbuf (k : CallbackKind) (a : Word) : (s.raiseCallback k a).rowbuf = s.rowbuf := rfl
@[simp] theorem State.raiseCallback_fillColor (k : CallbackKind) (a : Word) : (s.raiseCallback k a).fillColor = s.fillColor := rfl
@[simp] theorem State.raiseCallback_width (k : CallbackKind) (a : Word) : (s.raiseCallback k a).width = s.width := rfl
@[simp] theorem State.raiseCallback_realWidth (k : CallbackKind) (a : Word) : (s.raiseCallback k a).realWidth = s.realWidth := rfl
@[simp] theorem State.raiseCallback_clearedWidth (k : CallbackKind) (a : Word) : (s.raiseCallback k a).clearedWidth = s.clearedWidth := rfl
@[simp] theorem State.raiseCallback_inbuf (k : CallbackKind) (a : Word) : (s.raiseCallback k a).inbuf = s.inbuf := rfl
@[simp] theorem State.raiseCallback_pos (k : CallbackKind) (a : Word) : (s.raiseCallback k a).pos = s.pos := rfl
@[simp] theorem State.raiseCallback_endPos (k : CallbackKind) (a : Word) : (s.raiseCallback k a).endPos = s.endPos := rfl
@[simp] theorem State.raiseCallback_phase (k : CallbackKind) (a : Word) : (s.raiseCallback k a).phase = k.waitPhase := rfl
@[simp] theorem State.raiseCallback_inited (k : CallbackKind) (a : Word) : (s.raiseCallback k a).inited = s.inited := rfl
@[simp] theorem State.raiseCallback_fault (k : CallbackKind) (a : Word) : (s.raiseCallback k a).fault = s.fault := rfl
@[simp] theorem State.raiseCallback_port (k : CallbackKind) (a : Word) : (s.raiseCallback k a).port = s.port := rfl
@[simp] theorem State.raiseCallback_out (k : CallbackKind) (a : Word) : (s.raiseCallback k a).out = .callback k a :: s.out := rfl
@[simp] theorem State.raiseCallback_guardEpoch (k : CallbackKind) (a : Word) : (s.raiseCallback k a).guardEpoch = s.guardEpoch := rfl

/-! `State.raiseMode` -/

@[simp] theorem State.raiseMode_build (m : Mode) : (s.raiseMode m).build = s.build := rfl
@[simp] theorem State.raiseMode_parser (m : Mode) : (s.raiseMode m).parser = s.parser := rfl
@[simp] theorem State.raiseMode_params (m : Mode) : (s.raiseMode m).params = s.params := rfl
@[simp] theorem State.raiseMode_pLength (m : Mode) : (s.raiseMode m).pLength = s.pLength := rfl
@[simp] theorem State.raiseMode_cursor (m : Mode) : (s.raiseMode m).cursor = s.cursor := rfl
@[simp] theorem State.raiseMode_color (m : Mode) : (s.raiseMode m).color = s.color := rfl
@[simp] theorem State.raiseMode_height (m : Mode) : (s.raiseMode m).height = s.height := rfl
@[simp] theorem State.raiseMode_rNum (m : Mode) : (s.raiseMode m).rNum = s.rNum := rfl
@[simp] theorem State.raiseMode_rDenom (m : Mode) : (s.raiseMode m).rDenom = s.rDenom := rfl
@[simp] theorem State.raiseMode_rWidth (m : Mode) : (s.raiseMode m).rWidth = s.rWidth := rfl
@[simp] theorem State.raiseMode_rHeight (m : Mode) : (s.raiseMode m).rHeight = s.rHeight := rfl
@[simp] theorem State.raiseMode_mode (m : Mode) : (s.raiseMode m).mode = s.mode := rfl
@[simp] theorem State.raiseMode_level (m : Mode) : (s.raiseMode m).level = s.level := rfl
@[simp] theorem State.raiseMode_truncate (m : Mode) : (s.raiseMode m).truncate = s.truncate := rfl
@[simp] theorem State.raiseMode_abort (m : Mode) : (s.raiseMode m).abort = s.abort := rfl
@[simp] theorem State.raiseMode_paletteLength (m : Mode) : (s.raiseMode m).paletteLength = s.paletteLength := rfl
@[simp] theorem State.raiseMode_palette (m : Mode) : (s.raiseMode m).palette = s.palette := rfl
@[simp] theorem State.raiseMode_rowbuf (m : Mode) : (s.raiseMode m).rowbuf = s.rowbuf := rfl
@[simp] theorem State.raiseMode_fillColor (m : Mode) : (s.raiseMode m).fillColor = s.fillColor := rfl
@[simp] theorem State.raiseMode_width (m : Mode) : (s.raiseMode m).width = s.width := rfl
@[simp] theorem State.raiseMode_realWidth (m : Mode) : (s.raiseMode m).realWidth = s.realWidth := rfl
@[simp] theorem State.raiseMode_clearedWidth (m : Mode) : (s.raiseMode m).clearedWidth = s.clearedWidth := rfl
@[simp] theorem State.raiseMode_inbuf (m : Mode) : (s.raiseMode m).inbuf = s.inbuf := rfl
@[simp] theorem State.raiseMode_pos (m : Mode) : (s.raiseMode m).pos = s.pos := rfl
@[simp] theorem State.raiseMode_endPos (m : Mode) : (s.raiseMode m).endPos = s.endPos := rfl
@[simp] theorem State.raiseMode_phase (m : Mode) : (s.raiseMode m).phase = .waitMode := rfl
@[simp] theorem State.raiseMode_inited (m : Mode) : (s.raiseMode m).inited = s.inited := rfl
@[simp] theorem State.raiseMode_fault (m : Mode) : (s.raiseMode m).fault = s.fault := rfl
@[simp] theorem State.raiseMode_port (m : Mode) : (s.raiseMode m).port = s.port := rfl
@[simp] theorem State.raiseMode_out (m : Mode) : (s.raiseMode m).out = .callback .mode (m.code.setWidth 32) :: s.out := rfl
@[simp] theorem State.raiseMode_guardEpoch (m : Mode) : (s.raiseMode m).guardEpoch = s.guardEpoch := rfl

/-! `State.raiseBand` -/

@[simp] theorem State.raiseBand_build (w : Nat) : (s.raiseBand w).build = s.build := rfl
@[simp] theorem State.raiseBand_parser (w : Nat) : (s.raiseBand w).parser = s.parser := rfl
@[simp] theorem State.raiseBand_params (w : Nat) : (s.raiseBand w).params = s.params := rfl
@[simp] theorem State.raiseBand_pLength (w : Nat) : (s.raiseBand w).pLength = s.pLength := rfl
@[simp] theorem State.raiseBand_cursor (w : Nat) : (s.raiseBand w).cursor = s.cursor := rfl
@[simp] theorem State.raiseBand_color (w : Nat) : (s.raiseBand w).color = s.color := rfl
@[simp] theorem State.raiseBand_height (w : Nat) : (s.raiseBand w).height = s.height := rfl
@[simp] theorem State.raiseBand_rNum (w : Nat) : (s.raiseBand w).rNum = s.rNum := rfl
@[simp] theorem State.raiseBand_rDenom (w : Nat) : (s.raiseBand w).rDenom = s.rDenom := rfl
@[simp] theorem State.raiseBand_rWidth (w : Nat) : (s.raiseBand w).rWidth = s.rWidth := rfl
@[simp] theorem State.raiseBand_rHeight (w : Nat) : (s.raiseBand w).rHeight = s.rHeight := rfl
@[simp] theorem State.raiseBand_mode (w : Nat) : (s.raiseBand w).mode = s.mode := rfl
@[simp] theorem State.raiseBand_level (w : Nat) : (s.raiseBand w).level = s.level := rfl
@[simp] theorem State.raiseBand_truncate (w : Nat) : (s.raiseBand w).truncate = s.truncate := rfl
@[simp] theorem State.raiseBand_abort (w : Nat) : (s.raiseBand w).abort = s.abort := rfl
@[simp] theorem State.raiseBand_paletteLength (w : Nat) : (s.raiseBand w).paletteLength = s.paletteLength := rfl
@[simp] theorem State.raiseBand_palette (w : Nat) : (s.raiseBand w).palette = s.palette := rfl
@[simp] theorem State.raiseBand_rowbuf (w : Nat) : (s.raiseBand w).rowbuf = s.rowbuf := rfl
@[simp] theorem State.raiseBand_fillColor (w : Nat) : (s.raiseBand w).fillColor = s.fillColor := rfl
@[simp] theorem State.raiseBand_width (w : Nat) : (s.raiseBand w).width = s.width := rfl
@[simp] theorem State.raiseBand_realWidth (w : Nat) : (s.raiseBand w).realWidth = s.realWidth := rfl
@[simp] theorem State.raiseBand_clearedWidth (w : Nat) : (s.raiseBand w).clearedWidth = s.clearedWidth := rfl
@[simp] theorem State.raiseBand_inbuf (w : Nat) : (s.raiseBand w).inbuf = s.inbuf := rfl
@[simp] theorem State.raiseBand_pos (w : Nat) : (s.raiseBand w).pos = s.pos := rfl
@[simp] theorem State.raiseBand_endPos (w : Nat) : (s.raiseBand w).endPos = s.endPos := rfl
@[simp] theorem State.raiseBand_phase (w : Nat) : (s.raiseBand w).phase = .waitBand := rfl
@[simp] theorem State.raiseBand_inited (w : Nat) : (s.raiseBand w).inited = s.inited := rfl
@[simp] theorem State.raiseBand_fault (w : Nat) : (s.raiseBand w).fault = s.fault := rfl
@[simp] theorem State.raiseBand_port (w : Nat) : (s.raiseBand w).port = s.port := rfl
@[simp] theorem State.raiseBand_out (w : Nat) : (s.raiseBand w).out = .callback .band (BitVec.ofNat 32 w) :: s.out := rfl
@[simp] theorem State.raiseBand_guardEpoch (w : Nat) : (s.raiseBand w).guardEpoch = s.guardEpoch := rfl

/-! `State.resume` -/

@[simp] theorem State.resume_build : s.resume.build = s.build := rfl
@[simp] theorem State.resume_parser : s.resume.parser = s.parser := rfl
@[simp] theorem State.resume_params : s.resume.params = s.params := rfl
@[simp] theorem State.resume_pLength : s.resume.pLength = s.pLength := rfl
@[simp] theorem State.resume_cursor : s.resume.cursor = s.cursor := rfl
@[simp] theorem State.resume_color : s.resume.color = s.color := rfl
@[simp] theorem State.resume_height : s.resume.height = s.height := rfl
@[simp] theorem State.resume_rNum : s.resume.rNum = s.rNum := rfl
@[simp] theorem State.resume_rDenom : s.resume.rDenom = s.rDenom := rfl
@[simp] theorem State.resume_rWidth : s.resume.rWidth = s.rWidth := rfl
@[simp] theorem State.resume_rHeight : s.resume.rHeight = s.rHeight := rfl
@[simp] theorem State.resume_mode : s.resume.mode = s.mode := rfl
@[simp] theorem State.resume_level : s.resume.level = s.level := rfl
@[simp] theorem State.resume_truncate : s.resume.truncate = s.truncate := rfl
@[simp] theorem State.resume_abort : s.resume.abort = s.abort := rfl
@[simp] theorem State.resume_paletteLength : s.resume.paletteLength = s.paletteLength := rfl
@[simp] theorem State.resume_palette : s.resume.palette = s.palette := rfl
@[simp] theorem State.resume_rowbuf : s.resume.rowbuf = s.rowbuf := rfl
@[simp] theorem State.resume_fillColor : s.resume.fillColor = s.fillColor := rfl
@[simp] theorem State.resume_width : s.resume.width = s.width := rfl
@[simp] theorem State.resume_realWidth : s.resume.realWidth = s.realWidth := rfl
@[simp] theorem State.resume_clearedWidth : s.resume.clearedWidth = s.clearedWidth := rfl
@[simp] theorem State.resume_inbuf : s.resume.inbuf = s.inbuf := rfl
@[simp] theorem State.resume_pos : s.resume.pos = s.pos := rfl
@[simp] theorem State.resume_endPos : s.resume.endPos = s.endPos := rfl
@[simp] theorem State.resume_phase : s.resume.phase = .run := rfl
@[simp] theorem State.resume_inited : s.resume.inited = s.inited := rfl
@[simp] theorem State.resume_fault : s.resume.fault = s.fault := rfl
@[simp] theorem State.resume_port : s.resume.port = s.port := rfl
@[simp] theorem State.resume_out : s.resume.out = s.out := rfl
@[simp] theorem State.resume_guardEpoch : s.resume.guardEpoch = s.guardEpoch + 1 := rfl

/-! `State.complete` -/

@[simp] theorem State.complete_build : s.complete.build = s.build := rfl
@[simp] theorem State.complete_parser : s.complete.parser = s.parser := rfl
@[simp] theorem State.complete_params : s.complete.params = s.params := rfl
@[simp] theorem State.complete_pLength : s.complete.pLength = s.pLength := rfl
@[simp] theorem State.complete_cursor : s.complete.cursor = s.cursor := rfl
@[simp] theorem State.complete_color : s.complete.color = s.color := rfl
@[simp] theorem State.complete_height : s.complete.height = s.height := rfl
@[simp] theorem State.complete_rNum : s.complete.rNum = s.rNum := rfl
@[simp] theorem State.complete_rDenom : s.complete.rDenom = s.rDenom := rfl
@[simp] theorem State.complete_rWidth : s.complete.rWidth = s.rWidth := rfl
@[simp] theorem State.complete_rHeight : s.complete.rHeight = s.rHeight := rfl
@[simp] theorem State.complete_mode : s.complete.mode = s.mode := rfl
@[simp] theorem State.complete_level : s.complete.level = s.level := rfl
@[simp] theorem State.complete_truncate : s.complete.truncate = s.truncate := rfl
@[simp] theorem State.complete_abort : s.complete.abort = s.abort := rfl
@[simp] theorem State.complete_paletteLength : s.complete.paletteLength = s.paletteLength := rfl
@[simp] theorem State.complete_palette : s.complete.palette = s.palette := rfl
@[simp] theorem State.complete_rowbuf : s.complete.rowbuf = s.rowbuf := rfl
@[simp] theorem State.complete_fillColor : s.complete.fillColor = s.fillColor := rfl
@[simp] theorem State.complete_width : s.complete.width = s.width := rfl
@[simp] theorem State.complete_realWidth : s.complete.realWidth = s.realWidth := rfl
@[simp] theorem State.complete_clearedWidth : s.complete.clearedWidth = s.clearedWidth := rfl
@[simp] theorem State.complete_inbuf : s.complete.inbuf = s.inbuf := rfl
@[simp] theorem State.complete_pos : s.complete.pos = s.pos := rfl
@[simp] theorem State.complete_endPos : s.complete.endPos = s.endPos := rfl
@[simp] theorem State.complete_phase : s.complete.phase = .idle := rfl
@[simp] theorem State.complete_inited : s.complete.inited = s.inited := rfl
@[simp] theorem State.complete_fault : s.complete.fault = s.fault := rfl
@[simp] theorem State.complete_port : s.complete.port = s.port := rfl
@[simp] theorem State.complete_out : s.complete.out = .done :: s.out := rfl
@[simp] theorem State.complete_guardEpoch : s.complete.guardEpoch = s.guardEpoch := rfl

/-! `State.refuse` -/

@[simp] theorem State.refuse_build (c : FaultCode) (t : Transaction) : (s.refuse c t).build = s.build := rfl
@[simp] theorem State.refuse_parser (c : FaultCode) (t : Transaction) : (s.refuse c t).parser = s.parser := rfl
@[simp] theorem State.refuse_params (c : FaultCode) (t : Transaction) : (s.refuse c t).params = s.params := rfl
@[simp] theorem State.refuse_pLength (c : FaultCode) (t : Transaction) : (s.refuse c t).pLength = s.pLength := rfl
@[simp] theorem State.refuse_cursor (c : FaultCode) (t : Transaction) : (s.refuse c t).cursor = s.cursor := rfl
@[simp] theorem State.refuse_color (c : FaultCode) (t : Transaction) : (s.refuse c t).color = s.color := rfl
@[simp] theorem State.refuse_height (c : FaultCode) (t : Transaction) : (s.refuse c t).height = s.height := rfl
@[simp] theorem State.refuse_rNum (c : FaultCode) (t : Transaction) : (s.refuse c t).rNum = s.rNum := rfl
@[simp] theorem State.refuse_rDenom (c : FaultCode) (t : Transaction) : (s.refuse c t).rDenom = s.rDenom := rfl
@[simp] theorem State.refuse_rWidth (c : FaultCode) (t : Transaction) : (s.refuse c t).rWidth = s.rWidth := rfl
@[simp] theorem State.refuse_rHeight (c : FaultCode) (t : Transaction) : (s.refuse c t).rHeight = s.rHeight := rfl
@[simp] theorem State.refuse_mode (c : FaultCode) (t : Transaction) : (s.refuse c t).mode = s.mode := rfl
@[simp] theorem State.refuse_level (c : FaultCode) (t : Transaction) : (s.refuse c t).level = s.level := rfl
@[simp] theorem State.refuse_truncate (c : FaultCode) (t : Transaction) : (s.refuse c t).truncate = s.truncate := rfl
@[simp] theorem State.refuse_abort (c : FaultCode) (t : Transaction) : (s.refuse c t).abort = s.abort := rfl
@[simp] theorem State.refuse_paletteLength (c : FaultCode) (t : Transaction) : (s.refuse c t).paletteLength = s.paletteLength := rfl
@[simp] theorem State.refuse_palette (c : FaultCode) (t : Transaction) : (s.refuse c t).palette = s.palette := rfl
@[simp] theorem State.refuse_rowbuf (c : FaultCode) (t : Transaction) : (s.refuse c t).rowbuf = s.rowbuf := rfl
@[simp] theorem State.refuse_fillColor (c : FaultCode) (t : Transaction) : (s.refuse c t).fillColor = s.fillColor := rfl
@[simp] theorem State.refuse_width (c : FaultCode) (t : Transaction) : (s.refuse c t).width = s.width := rfl
@[simp] theorem State.refuse_realWidth (c : FaultCode) (t : Transaction) : (s.refuse c t).realWidth = s.realWidth := rfl
@[simp] theorem State.refuse_clearedWidth (c : FaultCode) (t : Transaction) : (s.refuse c t).clearedWidth = s.clearedWidth := rfl
@[simp] theorem State.refuse_inbuf (c : FaultCode) (t : Transaction) : (s.refuse c t).inbuf = s.inbuf := rfl
@[simp] theorem State.refuse_pos (c : FaultCode) (t : Transaction) : (s.refuse c t).pos = s.pos := rfl
@[simp] theorem State.refuse_endPos (c : FaultCode) (t : Transaction) : (s.refuse c t).endPos = s.endPos := rfl
@[simp] theorem State.refuse_phase (c : FaultCode) (t : Transaction) : (s.refuse c t).phase = s.phase := rfl
@[simp] theorem State.refuse_inited (c : FaultCode) (t : Transaction) : (s.refuse c t).inited = s.inited := rfl
@[simp] theorem State.refuse_fault (c : FaultCode) (t : Transaction) : (s.refuse c t).fault = if (⟨c, t⟩ : FaultRecord) ∈ s.fault then s.fault else s.fault ++ [⟨c, t⟩] := rfl
@[simp] theorem State.refuse_port (c : FaultCode) (t : Transaction) : (s.refuse c t).port = s.port := rfl
@[simp] theorem State.refuse_out (c : FaultCode) (t : Transaction) : (s.refuse c t).out = s.out := rfl
@[simp] theorem State.refuse_guardEpoch (c : FaultCode) (t : Transaction) : (s.refuse c t).guardEpoch = s.guardEpoch := rfl

/-! `State.commitL1` -/

@[simp] theorem State.commitL1_build (a b w : Word) : (s.commitL1 a b w).build = s.build := rfl
@[simp] theorem State.commitL1_parser (a b w : Word) : (s.commitL1 a b w).parser = s.parser := rfl
@[simp] theorem State.commitL1_params (a b w : Word) : (s.commitL1 a b w).params = s.params := rfl
@[simp] theorem State.commitL1_pLength (a b w : Word) : (s.commitL1 a b w).pLength = s.pLength := rfl
@[simp] theorem State.commitL1_cursor (a b w : Word) : (s.commitL1 a b w).cursor = s.cursor := rfl
@[simp] theorem State.commitL1_color (a b w : Word) : (s.commitL1 a b w).color = s.color := rfl
@[simp] theorem State.commitL1_height (a b w : Word) : (s.commitL1 a b w).height = 0 := rfl
@[simp] theorem State.commitL1_rNum (a b w : Word) : (s.commitL1 a b w).rNum = a := rfl
@[simp] theorem State.commitL1_rDenom (a b w : Word) : (s.commitL1 a b w).rDenom = b := rfl
@[simp] theorem State.commitL1_rWidth (a b w : Word) : (s.commitL1 a b w).rWidth = w := rfl
@[simp] theorem State.commitL1_rHeight (a b w : Word) : (s.commitL1 a b w).rHeight = 0 := rfl
@[simp] theorem State.commitL1_mode (a b w : Word) : (s.commitL1 a b w).mode = .m1 := rfl
@[simp] theorem State.commitL1_level (a b w : Word) : (s.commitL1 a b w).level = .l1 := rfl
@[simp] theorem State.commitL1_truncate (a b w : Word) : (s.commitL1 a b w).truncate = s.truncate := rfl
@[simp] theorem State.commitL1_abort (a b w : Word) : (s.commitL1 a b w).abort = s.abort := rfl
@[simp] theorem State.commitL1_paletteLength (a b w : Word) : (s.commitL1 a b w).paletteLength = s.paletteLength := rfl
@[simp] theorem State.commitL1_palette (a b w : Word) : (s.commitL1 a b w).palette = s.palette := rfl
@[simp] theorem State.commitL1_rowbuf (a b w : Word) : (s.commitL1 a b w).rowbuf = s.rowbuf := rfl
@[simp] theorem State.commitL1_fillColor (a b w : Word) : (s.commitL1 a b w).fillColor = s.fillColor := rfl
@[simp] theorem State.commitL1_width (a b w : Word) : (s.commitL1 a b w).width = 0 := rfl
@[simp] theorem State.commitL1_realWidth (a b w : Word) : (s.commitL1 a b w).realWidth = s.realWidth := rfl
@[simp] theorem State.commitL1_clearedWidth (a b w : Word) : (s.commitL1 a b w).clearedWidth = s.clearedWidth := rfl
@[simp] theorem State.commitL1_inbuf (a b w : Word) : (s.commitL1 a b w).inbuf = s.inbuf := rfl
@[simp] theorem State.commitL1_pos (a b w : Word) : (s.commitL1 a b w).pos = s.pos := rfl
@[simp] theorem State.commitL1_endPos (a b w : Word) : (s.commitL1 a b w).endPos = s.endPos := rfl
@[simp] theorem State.commitL1_phase (a b w : Word) : (s.commitL1 a b w).phase = s.phase := rfl
@[simp] theorem State.commitL1_inited (a b w : Word) : (s.commitL1 a b w).inited = s.inited := rfl
@[simp] theorem State.commitL1_fault (a b w : Word) : (s.commitL1 a b w).fault = s.fault := rfl
@[simp] theorem State.commitL1_port (a b w : Word) : (s.commitL1 a b w).port = s.port := rfl
@[simp] theorem State.commitL1_out (a b w : Word) : (s.commitL1 a b w).out = s.out := rfl
@[simp] theorem State.commitL1_guardEpoch (a b w : Word) : (s.commitL1 a b w).guardEpoch = s.guardEpoch := rfl

/-! `State.commitRaster` -/

@[simp] theorem State.commitRaster_build : s.commitRaster.build = s.build := rfl
@[simp] theorem State.commitRaster_parser : s.commitRaster.parser = s.parser := rfl
@[simp] theorem State.commitRaster_params : s.commitRaster.params = s.params := rfl
@[simp] theorem State.commitRaster_pLength : s.commitRaster.pLength = s.pLength := rfl
@[simp] theorem State.commitRaster_cursor : s.commitRaster.cursor = s.cursor := rfl
@[simp] theorem State.commitRaster_color : s.commitRaster.color = s.color := rfl
@[simp] theorem State.commitRaster_height : s.commitRaster.height = if s.truncate then s.param 3 else 0 := rfl
@[simp] theorem State.commitRaster_rNum : s.commitRaster.rNum = s.param 0 := rfl
@[simp] theorem State.commitRaster_rDenom : s.commitRaster.rDenom = s.param 1 := rfl
@[simp] theorem State.commitRaster_rWidth : s.commitRaster.rWidth = s.param 2 := rfl
@[simp] theorem State.commitRaster_rHeight : s.commitRaster.rHeight = s.param 3 := rfl
@[simp] theorem State.commitRaster_mode : s.commitRaster.mode = if s.truncate then .m2 else .m1 := rfl
@[simp] theorem State.commitRaster_level : s.commitRaster.level = .l2 := rfl
@[simp] theorem State.commitRaster_truncate : s.commitRaster.truncate = s.truncate := rfl
@[simp] theorem State.commitRaster_abort : s.commitRaster.abort = s.abort := rfl
@[simp] theorem State.commitRaster_paletteLength : s.commitRaster.paletteLength = s.paletteLength := rfl
@[simp] theorem State.commitRaster_palette : s.commitRaster.palette = s.palette := rfl
@[simp] theorem State.commitRaster_rowbuf : s.commitRaster.rowbuf = s.rowbuf := rfl
@[simp] theorem State.commitRaster_fillColor : s.commitRaster.fillColor = s.fillColor := rfl
@[simp] theorem State.commitRaster_width : s.commitRaster.width = if s.truncate then min (s.param 2).toNat s.build.maxWidth + 4 else 0 := rfl
@[simp] theorem State.commitRaster_realWidth : s.commitRaster.realWidth = s.realWidth := rfl
@[simp] theorem State.commitRaster_clearedWidth : s.commitRaster.clearedWidth = s.clearedWidth := rfl
@[simp] theorem State.commitRaster_inbuf : s.commitRaster.inbuf = s.inbuf := rfl
@[simp] theorem State.commitRaster_pos : s.commitRaster.pos = s.pos := rfl
@[simp] theorem State.commitRaster_endPos : s.commitRaster.endPos = s.endPos := rfl
@[simp] theorem State.commitRaster_phase : s.commitRaster.phase = s.phase := rfl
@[simp] theorem State.commitRaster_inited : s.commitRaster.inited = s.inited := rfl
@[simp] theorem State.commitRaster_fault : s.commitRaster.fault = s.fault := rfl
@[simp] theorem State.commitRaster_port : s.commitRaster.port = s.port := rfl
@[simp] theorem State.commitRaster_out : s.commitRaster.out = s.out := rfl
@[simp] theorem State.commitRaster_guardEpoch : s.commitRaster.guardEpoch = s.guardEpoch := rfl

end Sys2Proof.Machine
end

