-- ==== Sys2Proof/Laws/Ops.lean ====
section
/-! SUPPORT. What each shared operation can do, said once: the bytes of a word, writes and reads of the arrays, the
paint kernels, the clears, the color resolution, and the numeric format of the HLS converter. -/

namespace Sys2Proof

@[simp] theorem Word.bytes_length (w : Word) : w.bytes.length = 4 := rfl

theorem Word.bytes_getElem? (w : Word) (k : Nat) (h : k < 4) : w.bytes[k]? = some (w.byte k) := by
  match k, h with
  | 0, _ => rfl
  | 1, _ => rfl
  | 2, _ => rfl
  | 3, _ => rfl

/-- A word is put together again from its four bytes. -/
@[simp] theorem Word.ofBytes_byte (w : Word) : Word.ofBytes (w.byte 0) (w.byte 1) (w.byte 2) (w.byte 3) = w := by
  apply BitVec.eq_of_getLsbD_eq
  intro i hi
  simp only [Word.ofBytes, Word.byte, BitVec.getLsbD_append, BitVec.getLsbD_extractLsb']
  by_cases h0 : i < 8
  · simp [h0]
  · by_cases h1 : i < 16
    · have : i - 8 < 8 := by omega
      simp [h0, this, show 8 + (i - 8) = i by omega]
    · by_cases h2 : i < 24
      · have a : ¬ i - 8 < 8 := by omega
        have b : i - 8 - 8 < 8 := by omega
        simp [h0, a, b, show 16 + (i - 8 - 8) = i by omega]
      · have a : ¬ i - 8 < 8 := by omega
        have b : ¬ i - 8 - 8 < 8 := by omega
        have c : i - 8 - 8 - 8 < 8 := by omega
        simp [h0, a, b, c, show 24 + (i - 8 - 8 - 8) = i by omega]

end Sys2Proof

namespace Sys2Proof.Machine

theorem repeatBytes_length (n : Nat) (w : Word) : (repeatBytes n w).length = 4 * n := by
  induction n with
  | zero => rfl
  | succ n ih => rw [repeatBytes, List.length_append, ih, Word.bytes_length]; omega

theorem repeatBytes_getElem? (n : Nat) (w : Word) (k : Nat) (h : k < 4 * n) :
    (repeatBytes n w)[k]? = some (w.byte (k % 4)) := by
  induction n generalizing k with
  | zero => omega
  | succ n ih =>
    rw [repeatBytes]
    by_cases hk : k < 4
    · rw [List.getElem?_append_left (by simpa using hk), Word.bytes_getElem? w k hk, Nat.mod_eq_of_lt hk]
    · rw [List.getElem?_append_right (by simp; omega), Word.bytes_length, ih _ (by omega)]
      congr 2; omega

/-! Reads and writes of the arrays -/

/-- The byte a space reads as after a write of consecutive bytes. -/
theorem State.byteAt_writeBytes (s : State) (sp : Space) (a : Nat) (bs : List Byte) (x : Nat) :
    (s.writeBytes sp a bs).byteAt sp x =
      if h : a ≤ x ∧ x < a + bs.length then bs[x - a]'(by omega) else s.byteAt sp x := by
  have hm : (s.writeBytes sp a bs).mem sp = (s.mem sp).write a bs := by cases sp <;> rfl
  rw [State.byteAt, hm, Mem.read?_write]
  by_cases h : a ≤ x ∧ x < a + bs.length
  · rw [if_pos h, dif_pos h, List.getElem?_eq_getElem]
  · rw [if_neg h, dif_neg h]; rfl

/-- A write of one space leaves every other space as it was. -/
theorem State.byteAt_writeBytes_ne (s : State) (sp sq : Space) (a : Nat) (bs : List Byte) (x : Nat)
    (h : sp ≠ sq) : (s.writeBytes sp a bs).byteAt sq x = s.byteAt sq x := by
  cases sp <;> cases sq <;> first | rfl | exact absurd rfl h

/-- A word reads back as written. -/
theorem State.wordAt_setWord (s : State) (sp : Space) (i : Nat) (w : Word) :
    (s.setWord sp i w).wordAt sp i = w := by
  have hb : ∀ j, j < 4 → (s.setWord sp i w).byteAt sp (4 * i + j) = w.byte j := by
    intro j hj
    rw [State.setWord, State.byteAt_writeBytes,
      dif_pos ⟨by omega, by rw [Word.bytes_length]; omega⟩]
    have : w.bytes[j]? = some (w.byte j) := Word.bytes_getElem? w j hj
    rw [List.getElem?_eq_some_iff] at this
    obtain ⟨_, h2⟩ := this
    rw [← h2]; congr 1; omega
  rw [State.wordAt, show 4 * i = 4 * i + 0 from rfl, hb 0 (by omega), hb 1 (by omega), hb 2 (by omega),
    hb 3 (by omega), Word.ofBytes_byte]

/-- A word write leaves every byte outside its element as it was. -/
theorem State.byteAt_setWord_ne (s : State) (sp : Space) (i : Nat) (w : Word) (x : Nat) (h : x / 4 ≠ i) :
    (s.setWord sp i w).byteAt sp x = s.byteAt sp x := by
  rw [State.setWord, State.byteAt_writeBytes, dif_neg (by rw [Word.bytes_length]; omega)]

/-- Reading a byte where one is written. -/
theorem State.byteAt_of_read? (s : State) (sp : Space) (x : Nat) (b : Byte)
    (h : (s.mem sp).read? x = some b) : s.byteAt sp x = b := by rw [State.byteAt, h]

/-! The paint kernels -/

/-- Painting a list of rows changes only the row buffers: the bytes of the selected runs become the bytes of the
value, every other byte stays, and the canonical form and the bounds stay. -/
theorem State.paintList_spec (mask : BitVec 6) (lo n : Nat) (w : Word) (rows : List Nat) (s : State) :
    ∃ m, rows.foldl (fun t r => if mask.getLsbD r then t.paintRow r lo n w else t) s = { s with rowbuf := m } ∧
      (∀ x, ((∃ r ∈ rows, mask.getLsbD r = true ∧ pixelOffset s.build r lo ≤ x ∧
            x < pixelOffset s.build r lo + 4 * n) → m.read? x = some (w.byte (x % 4))) ∧
        ((¬ ∃ r ∈ rows, mask.getLsbD r = true ∧ pixelOffset s.build r lo ≤ x ∧
            x < pixelOffset s.build r lo + 4 * n) → m.read? x = s.rowbuf.read? x)) ∧
      (s.rowbuf.wf = true → m.wf = true) ∧
      (∀ N, (∀ r ∈ rows, pixelOffset s.build r lo + 4 * n ≤ N) → s.rowbuf.below N = true →
        m.below N = true) := by
  induction rows generalizing s with
  | nil => exact ⟨s.rowbuf, rfl, fun x => ⟨fun ⟨r, hr, _⟩ => absurd hr (by simp), fun _ => rfl⟩, id, fun _ _ h => h⟩
  | cons r rows ih =>
    rw [List.foldl_cons]
    by_cases hb : mask.getLsbD r = true
    · rw [if_pos hb]
      obtain ⟨m, h1, h2, h3, h4⟩ := ih (s.paintRow r lo n w)
      refine ⟨m, h1, fun x => ⟨?_, ?_⟩, fun h => h3 (Mem.wf_write _ _ _ h), fun N hN h => ?_⟩
      · rintro ⟨r', hr', hx⟩
        by_cases he : ∃ r ∈ rows, mask.getLsbD r = true ∧ pixelOffset s.build r lo ≤ x ∧
            x < pixelOffset s.build r lo + 4 * n
        · exact (h2 x).1 he
        · rw [(h2 x).2 he]
          rcases List.mem_cons.1 hr' with rfl | hr'
          · obtain ⟨-, hl, hu⟩ := hx
            have e : 4 ∣ pixelOffset s.build r' lo := ⟨_, rfl⟩
            change (s.rowbuf.write (pixelOffset s.build r' lo) (repeatBytes n w)).read? x = _
            rw [Mem.read?_write, repeatBytes_length, if_pos ⟨hl, hu⟩, repeatBytes_getElem? _ _ _ (by omega)]
            congr 2; omega
          · exact absurd ⟨r', hr', hx⟩ he
      · intro he
        have he' : ¬ ∃ r ∈ rows, mask.getLsbD r = true ∧ pixelOffset s.build r lo ≤ x ∧
            x < pixelOffset s.build r lo + 4 * n := fun ⟨r', hr', hx⟩ =>
          he ⟨r', List.mem_cons_of_mem _ hr', hx⟩
        rw [(h2 x).2 he']
        change (s.rowbuf.write (pixelOffset s.build r lo) (repeatBytes n w)).read? x = _
        rw [Mem.read?_write, repeatBytes_length, if_neg]
        intro hx
        exact he ⟨r, by simp, hb, hx⟩
      · refine h4 N (fun r' hr' => hN r' (List.mem_cons_of_mem _ hr')) (Mem.below_write _ _ _ _ h (.inl ?_))
        rw [repeatBytes_length]
        exact hN r (by simp)
    · rw [if_neg hb]
      obtain ⟨m, h1, h2, h3, h4⟩ := ih s
      refine ⟨m, h1, fun x => ⟨?_, ?_⟩, h3, fun N hN h =>
        h4 N (fun r' hr' => hN r' (List.mem_cons_of_mem _ hr')) h⟩
      · rintro ⟨r', hr', hx⟩
        rcases List.mem_cons.1 hr' with rfl | hr'
        · exact absurd hx.1 hb
        · exact (h2 x).1 ⟨r', hr', hx⟩
      · intro he
        exact (h2 x).2 fun ⟨r', hr', hx⟩ => he ⟨r', List.mem_cons_of_mem _ hr', hx⟩

theorem pixelOffset_bound (b : Build) (r lo n : Nat) (hr : r < 6) (h : lo + n ≤ b.rowStride) :
    pixelOffset b r lo + 4 * n ≤ 4 * (6 * b.rowStride) := by
  have : r * b.rowStride ≤ 5 * b.rowStride := Nat.mul_le_mul_right _ (by omega)
  simp only [pixelOffset, pixelIndex]; omega

/-- What `paintRows` can do: it changes only the row buffers, there only the bytes of the run, and keeps the
canonical form and, for a run inside the rows, the bounds. -/
theorem State.paintRows_spec (s : State) (mask : BitVec 6) (lo n : Nat) (w : Word) :
    ∃ m, s.paintRows mask lo n w = { s with rowbuf := m } ∧
      (∀ x, (inRun s.build mask lo n x → m.read? x = some (w.byte (x % 4))) ∧
        (¬ inRun s.build mask lo n x → m.read? x = s.rowbuf.read? x)) ∧
      (s.rowbuf.wf = true → m.wf = true) ∧
      (lo + n ≤ s.build.rowStride ∨ n = 0 → s.rowbuf.below (4 * (6 * s.build.rowStride)) = true →
        m.below (4 * (6 * s.build.rowStride)) = true) := by
  by_cases hn : n = 0
  · subst hn
    obtain ⟨m, h1, h2, h3, _⟩ := State.paintList_spec mask lo 0 w [0, 1, 2, 3, 4, 5] s
    have hnone : ∀ x, m.read? x = s.rowbuf.read? x := fun x => (h2 x).2 fun ⟨r, _, _, h4, h5⟩ => by omega
    refine ⟨m, h1, fun x => ⟨fun ⟨r, _, _, h4, h5⟩ => by omega, fun _ => hnone x⟩, h3, fun _ h => ?_⟩
    have e : ∀ (rows : List Nat) (t : State), t.rowbuf.below (4 * (6 * s.build.rowStride)) = true →
        (rows.foldl (fun t r => if mask.getLsbD r then t.paintRow r lo 0 w else t) t).rowbuf.below
          (4 * (6 * s.build.rowStride)) = true := by
      intro rows
      induction rows with
      | nil => exact fun _ h => h
      | cons r rows ih =>
        intro t ht
        rw [List.foldl_cons]
        refine ih _ ?_
        split
        · exact Mem.below_write _ _ _ _ ht (.inr rfl)
        · exact ht
    have := e [0, 1, 2, 3, 4, 5] s h
    rw [h1] at this
    exact this
  · obtain ⟨m, h1, h2, h3, h4⟩ := State.paintList_spec mask lo n w [0, 1, 2, 3, 4, 5] s
    have hrow : ∀ r, r ∈ [0, 1, 2, 3, 4, 5] ↔ r < 6 := by intro r; simp; omega
    refine ⟨m, h1, fun x => ⟨?_, ?_⟩, h3, fun hb h => h4 _ ?_ h⟩
    · rintro ⟨r, hr, hx⟩
      exact (h2 x).1 ⟨r, (hrow r).2 hr, hx⟩
    · intro he
      exact (h2 x).2 fun ⟨r, hr, hx⟩ => he ⟨r, (hrow r).1 hr, hx⟩
    · intro r hr
      exact pixelOffset_bound _ _ _ _ ((hrow r).1 hr) (by omega)

/-- An empty run covers no byte. -/
theorem not_inRun_zero (b : Build) (mask : BitVec 6) (lo x : Nat) : ¬ inRun b mask lo 0 x := by
  rintro ⟨r, _, _, h1, h2⟩; omega

/-- What `put_single` can do (R90): a run of one slot, or of none at the right edge. -/
theorem State.putSingle_eq (s : State) (code6 : BitVec 6) (color : Word) (col : Nat) :
    s.putSingle code6 color col =
      if col < s.build.maxWidth then s.paintRows code6 col 1 color else s := rfl

/-- What `fill_row_range` can do (R94): `paintRows` of all rows with the fill color. -/
theorem State.fillRowRange_eq (s : State) (lo hi : Nat) :
    s.fillRowRange lo hi = s.paintRows 63 lo (hi - lo) s.fillColor := rfl

/-- The bytes of a slot of a row inside a run over all rows. -/
theorem inRun_all (b : Build) (lo n r i j : Nat) (hr : r < 6) (h1 : lo ≤ i) (h2 : i < lo + n) (hj : j < 4) :
    inRun b 63 lo n (pixelOffset b r i + j) := by
  refine ⟨r, hr, ?_, ?_, ?_⟩
  · match r, hr with
    | 0, _ => rfl
    | 1, _ => rfl
    | 2, _ => rfl
    | 3, _ => rfl
    | 4, _ => rfl
    | 5, _ => rfl
  · simp only [pixelOffset, pixelIndex]; omega
  · simp only [pixelOffset, pixelIndex]; omega

/-- A byte of a slot of a row lies in a run that does not leave the rows exactly if its row is selected and its slot
is in the run. -/
theorem inRun_pixel (b : Build) (mask : BitVec 6) (lo n r i j : Nat) (hr : r < 6) (hi : i < b.rowStride)
    (hj : j < 4) (hb : lo + n ≤ b.rowStride) :
    inRun b mask lo n (pixelOffset b r i + j) ↔ mask.getLsbD r = true ∧ lo ≤ i ∧ i < lo + n := by
  constructor
  · rintro ⟨r', hr', hm, h1, h2⟩
    have e : r' = r := by
      simp only [pixelOffset, pixelIndex] at h1 h2
      rcases Nat.lt_trichotomy r' r with h | h | h
      · have : (r' + 1) * b.rowStride ≤ r * b.rowStride := Nat.mul_le_mul_right _ h
        rw [Nat.add_mul] at this; omega
      · exact h
      · have : (r + 1) * b.rowStride ≤ r' * b.rowStride := Nat.mul_le_mul_right _ h
        rw [Nat.add_mul] at this; omega
    subst e
    simp only [pixelOffset, pixelIndex] at h1 h2
    exact ⟨hm, by omega, by omega⟩
  · rintro ⟨hm, h1, h2⟩
    exact ⟨r, hr, hm, by simp only [pixelOffset, pixelIndex]; omega,
      by simp only [pixelOffset, pixelIndex]; omega⟩

/-! The clear on demand -/

theorem clearedAfter_step (b : Build) (c limit : Nat) (h : c < limit) (hl : limit ≤ b.maxWidth) :
    clearedAfter b (min (c + 128) b.rowCap) limit = clearedAfter b c limit := by
  have : limit < b.rowCap := by rw [Build.rowCap]; omega
  unfold clearedAfter
  rw [if_pos h]
  split <;> omega

theorem clearedAfter_ge (b : Build) (c limit : Nat) (hl : limit ≤ b.maxWidth) : limit ≤ clearedAfter b c limit := by
  have : limit ≤ b.rowCap := by rw [Build.rowCap]; omega
  unfold clearedAfter
  split <;> omega

theorem le_clearedAfter (b : Build) (c limit : Nat) (hl : limit ≤ b.maxWidth) : c ≤ clearedAfter b c limit := by
  have : limit ≤ b.rowCap := by rw [Build.rowCap]; omega
  unfold clearedAfter
  split <;> omega

theorem clearedAfter_le (b : Build) (c limit : Nat) (hc : c ≤ b.rowCap) : clearedAfter b c limit ≤ b.rowCap := by
  unfold clearedAfter
  split <;> omega

/-- Two runs over all rows, one after the other, cover what one run over both does. -/
theorem inRun_split (b : Build) (lo m hi x : Nat) (h1 : lo ≤ m) (h2 : m ≤ hi) :
    inRun b 63 lo (hi - lo) x ↔ inRun b 63 lo (m - lo) x ∨ inRun b 63 m (hi - m) x := by
  constructor
  · rintro ⟨r, hr, hm, h3, h4⟩
    simp only [pixelOffset, pixelIndex] at h3 h4
    by_cases hx : x < pixelOffset b r m
    · simp only [pixelOffset, pixelIndex] at hx
      exact .inl ⟨r, hr, hm, by simp only [pixelOffset, pixelIndex]; omega,
        by simp only [pixelOffset, pixelIndex]; omega⟩
    · simp only [pixelOffset, pixelIndex] at hx
      exact .inr ⟨r, hr, hm, by simp only [pixelOffset, pixelIndex]; omega,
        by simp only [pixelOffset, pixelIndex]; omega⟩
  · rintro (⟨r, hr, hm, h3, h4⟩ | ⟨r, hr, hm, h3, h4⟩) <;> simp only [pixelOffset, pixelIndex] at h3 h4 <;>
      exact ⟨r, hr, hm, by simp only [pixelOffset, pixelIndex]; omega,
        by simp only [pixelOffset, pixelIndex]; omega⟩

theorem State.clearLoop_spec (limit fuel : Nat) (s : State) (hl : limit ≤ s.build.maxWidth)
    (hf : limit - s.clearedWidth ≤ fuel) :
    ∃ m, State.clearLoop limit fuel s =
        { s with rowbuf := m, clearedWidth := clearedAfter s.build s.clearedWidth limit } ∧
      (∀ x, (inRun s.build 63 s.clearedWidth (clearedAfter s.build s.clearedWidth limit - s.clearedWidth) x →
            m.read? x = some (s.fillColor.byte (x % 4))) ∧
        (¬ inRun s.build 63 s.clearedWidth (clearedAfter s.build s.clearedWidth limit - s.clearedWidth) x →
            m.read? x = s.rowbuf.read? x)) ∧
      (s.rowbuf.wf = true → m.wf = true) ∧
      (s.rowbuf.below (4 * (6 * s.build.rowStride)) = true → m.below (4 * (6 * s.build.rowStride)) = true) := by
  have stop : ∀ (h : ¬ s.clearedWidth < limit), clearedAfter s.build s.clearedWidth limit = s.clearedWidth :=
    fun h => by rw [clearedAfter, if_neg h]
  have done : ¬ s.clearedWidth < limit → ∃ m, s =
        { s with rowbuf := m, clearedWidth := clearedAfter s.build s.clearedWidth limit } ∧
      (∀ x, (inRun s.build 63 s.clearedWidth (clearedAfter s.build s.clearedWidth limit - s.clearedWidth) x →
            m.read? x = some (s.fillColor.byte (x % 4))) ∧
        (¬ inRun s.build 63 s.clearedWidth (clearedAfter s.build s.clearedWidth limit - s.clearedWidth) x →
            m.read? x = s.rowbuf.read? x)) ∧
      (s.rowbuf.wf = true → m.wf = true) ∧
      (s.rowbuf.below (4 * (6 * s.build.rowStride)) = true → m.below (4 * (6 * s.build.rowStride)) = true) := by
    intro h
    rw [stop h, Nat.sub_self]
    exact ⟨s.rowbuf, rfl, fun x => ⟨fun hx => absurd hx (not_inRun_zero _ _ _ _), fun _ => rfl⟩, id, id⟩
  induction fuel generalizing s with
  | zero => exact done (by omega)
  | succ fuel ih =>
    rw [State.clearLoop]
    by_cases hc : s.clearedWidth < limit
    · rw [if_pos hc]
      have hcap : s.build.maxWidth + 4 = s.build.rowCap := rfl
      have hstr : s.build.rowStride = s.build.rowCap := rfl
      generalize hhi : min (s.clearedWidth + 128) s.build.rowCap = hi
      obtain ⟨m1, p1, p2, p3, p4⟩ := State.paintRows_spec s 63 s.clearedWidth (hi - s.clearedWidth) s.fillColor
      have hs : s.clearChunk = { s with rowbuf := m1, clearedWidth := hi } := by
        simp only [State.clearChunk, hhi, State.fillRowRange, p1]
      rw [hs]
      have hclr : clearedAfter s.build hi limit = clearedAfter s.build s.clearedWidth limit := by
        rw [← hhi]; exact clearedAfter_step _ _ _ hc hl
      have hle : hi ≤ clearedAfter s.build s.clearedWidth limit := by
        rw [← hclr]; exact le_clearedAfter _ _ _ hl
      obtain ⟨m, q1, q2, q3, q4⟩ := ih { s with rowbuf := m1, clearedWidth := hi } hl
        (by simp only; omega)
        (fun h => by
          have h' : ¬ hi < limit := h
          show clearedAfter s.build hi limit = hi
          rw [clearedAfter, if_neg h'])
        (fun h => by
          have h' : ¬ hi < limit := h
          have e : clearedAfter s.build hi limit = hi := by rw [clearedAfter, if_neg h']
          simp only
          rw [e, Nat.sub_self]
          exact ⟨m1, rfl, fun x => ⟨fun hx => absurd hx (not_inRun_zero _ _ _ _), fun _ => rfl⟩, id, id⟩)
      simp only at q1 q2 q3 q4
      rw [hclr] at q1 q2
      refine ⟨m, q1, fun x => ?_, fun h => q3 (p3 h), fun h => q4 (p4 (.inl (by omega)) h)⟩
      rw [inRun_split s.build s.clearedWidth hi _ x (by omega) hle]
      by_cases hx : inRun s.build 63 hi (clearedAfter s.build s.clearedWidth limit - hi) x
      · exact ⟨fun _ => (q2 x).1 hx, fun h => absurd (.inr hx) h⟩
      · rw [(q2 x).2 hx]
        exact ⟨fun h => (p2 x).1 (h.resolve_right hx), fun h => (p2 x).2 (fun h' => h (.inl h'))⟩
    · rw [if_neg hc]; exact done hc

/-- What `clear_upto` can do (R141): it raises the frontier to `clearedAfter` and fills exactly the slots between
the old and the new frontier, in all rows. -/
theorem State.clearUpto_spec (s : State) (limit : Nat) (hl : limit ≤ s.build.maxWidth) :
    ∃ m, s.clearUpto limit =
        { s with rowbuf := m, clearedWidth := clearedAfter s.build s.clearedWidth limit } ∧
      (∀ x, (inRun s.build 63 s.clearedWidth (clearedAfter s.build s.clearedWidth limit - s.clearedWidth) x →
            m.read? x = some (s.fillColor.byte (x % 4))) ∧
        (¬ inRun s.build 63 s.clearedWidth (clearedAfter s.build s.clearedWidth limit - s.clearedWidth) x →
            m.read? x = s.rowbuf.read? x)) ∧
      (s.rowbuf.wf = true → m.wf = true) ∧
      (s.rowbuf.below (4 * (6 * s.build.rowStride)) = true → m.below (4 * (6 * s.build.rowStride)) = true) :=
  State.clearLoop_spec limit limit s hl (by omega)

/-! The color resolution -/

/-- `hlsColor` is `normalize_hls` in the format of the implementation. -/
theorem hlsColor_eq (h l s : Nat) : hlsColor h l s = normalizeHls Config.hlsFp h l s := by
  simp only [hlsColor]
  split
  · next hx => cases Config.hlsFp <;> simp [hx.1, hx.2]
  · rfl

/-- What `resolve_color` can do (R83): change the color, and write one palette register. -/
theorem State.resolveColor_cases (s : State) :
    (s.pLength = 1 ∧ s.resolveColor = { s with color := s.wordAt .palette s.paletteIndex }) ∨
    (s.pLength = 5 ∧ s.isAssign = true ∧ s.resolveColor =
      { s with palette := s.palette.write (4 * s.paletteIndex) s.assignedColor.bytes, color := s.assignedColor }) ∨
    (s.pLength ≠ 1 ∧ s.isAssign = false ∧ s.resolveColor = s) := by
  by_cases h1 : s.pLength = 1
  · exact .inl ⟨h1, by rw [State.resolveColor, if_pos h1]⟩
  · by_cases h2 : s.isAssign = true
    · refine .inr (.inl ⟨?_, h2, ?_⟩)
      · simp [State.isAssign] at h2; exact h2.1.1
      · rw [State.resolveColor, if_neg h1, if_pos h2]; rfl
    · refine .inr (.inr ⟨h1, by simpa using h2, ?_⟩)
      rw [State.resolveColor, if_neg h1, if_neg h2]

/-- The palette index is a register of the block (R82). -/
theorem State.paletteIndex_lt (s : State) (h : s.paletteOk = true) : s.paletteIndex < s.build.paletteSize := by
  simp only [State.paletteOk, Bool.and_eq_true, decide_eq_true_eq] at h
  exact Nat.lt_of_lt_of_le (Nat.mod_lt _ (by omega)) h.2

end Sys2Proof.Machine
end

