-- ==== Sys2Proof/Laws/Frames.lean ====
section
/-! SUPPORT. What the paints, the clears and the color resolution leave in each field of State they do not write, one
lemma per field per operation. -/

namespace Sys2Proof.Machine

variable (s : State)

/-! `State.paintRows` -/

/-- A paint changes the row buffers only. -/
theorem State.paintRows_eq (c : BitVec 6) (lo n : Nat) (w : Word) :
    s.paintRows c lo n w = { s with rowbuf := (s.paintRows c lo n w).rowbuf } := by
  obtain ⟨m, h, _⟩ := s.paintRows_spec c lo n w
  rw [h]

@[simp] theorem State.paintRows_build (c : BitVec 6) (lo n : Nat) (w : Word) :
    (s.paintRows c lo n w).build = s.build := by
  rw [s.paintRows_eq c lo n w]
@[simp] theorem State.paintRows_parser (c : BitVec 6) (lo n : Nat) (w : Word) :
    (s.paintRows c lo n w).parser = s.parser := by
  rw [s.paintRows_eq c lo n w]
@[simp] theorem State.paintRows_params (c : BitVec 6) (lo n : Nat) (w : Word) :
    (s.paintRows c lo n w).params = s.params := by
  rw [s.paintRows_eq c lo n w]
@[simp] theorem State.paintRows_pLength (c : BitVec 6) (lo n : Nat) (w : Word) :
    (s.paintRows c lo n w).pLength = s.pLength := by
  rw [s.paintRows_eq c lo n w]
@[simp] theorem State.paintRows_cursor (c : BitVec 6) (lo n : Nat) (w : Word) :
    (s.paintRows c lo n w).cursor = s.cursor := by
  rw [s.paintRows_eq c lo n w]
@[simp] theorem State.paintRows_color (c : BitVec 6) (lo n : Nat) (w : Word) :
    (s.paintRows c lo n w).color = s.color := by
  rw [s.paintRows_eq c lo n w]
@[simp] theorem State.paintRows_height (c : BitVec 6) (lo n : Nat) (w : Word) :
    (s.paintRows c lo n w).height = s.height := by
  rw [s.paintRows_eq c lo n w]
@[simp] theorem State.paintRows_rNum (c : BitVec 6) (lo n : Nat) (w : Word) :
    (s.paintRows c lo n w).rNum = s.rNum := by
  rw [s.paintRows_eq c lo n w]
@[simp] theorem State.paintRows_rDenom (c : BitVec 6) (lo n : Nat) (w : Word) :
    (s.paintRows c lo n w).rDenom = s.rDenom := by
  rw [s.paintRows_eq c lo n w]
@[simp] theorem State.paintRows_rWidth (c : BitVec 6) (lo n : Nat) (w : Word) :
    (s.paintRows c lo n w).rWidth = s.rWidth := by
  rw [s.paintRows_eq c lo n w]
@[simp] theorem State.paintRows_rHeight (c : BitVec 6) (lo n : Nat) (w : Word) :
    (s.paintRows c lo n w).rHeight = s.rHeight := by
  rw [s.paintRows_eq c lo n w]
@[simp] theorem State.paintRows_mode (c : BitVec 6) (lo n : Nat) (w : Word) :
    (s.paintRows c lo n w).mode = s.mode := by
  rw [s.paintRows_eq c lo n w]
@[simp] theorem State.paintRows_level (c : BitVec 6) (lo n : Nat) (w : Word) :
    (s.paintRows c lo n w).level = s.level := by
  rw [s.paintRows_eq c lo n w]
@[simp] theorem State.paintRows_truncate (c : BitVec 6) (lo n : Nat) (w : Word) :
    (s.paintRows c lo n w).truncate = s.truncate := by
  rw [s.paintRows_eq c lo n w]
@[simp] theorem State.paintRows_abort (c : BitVec 6) (lo n : Nat) (w : Word) :
    (s.paintRows c lo n w).abort = s.abort := by
  rw [s.paintRows_eq c lo n w]
@[simp] theorem State.paintRows_paletteLength (c : BitVec 6) (lo n : Nat) (w : Word) :
    (s.paintRows c lo n w).paletteLength = s.paletteLength := by
  rw [s.paintRows_eq c lo n w]
@[simp] theorem State.paintRows_palette (c : BitVec 6) (lo n : Nat) (w : Word) :
    (s.paintRows c lo n w).palette = s.palette := by
  rw [s.paintRows_eq c lo n w]
@[simp] theorem State.paintRows_fillColor (c : BitVec 6) (lo n : Nat) (w : Word) :
    (s.paintRows c lo n w).fillColor = s.fillColor := by
  rw [s.paintRows_eq c lo n w]
@[simp] theorem State.paintRows_width (c : BitVec 6) (lo n : Nat) (w : Word) :
    (s.paintRows c lo n w).width = s.width := by
  rw [s.paintRows_eq c lo n w]
@[simp] theorem State.paintRows_realWidth (c : BitVec 6) (lo n : Nat) (w : Word) :
    (s.paintRows c lo n w).realWidth = s.realWidth := by
  rw [s.paintRows_eq c lo n w]
@[simp] theorem State.paintRows_clearedWidth (c : BitVec 6) (lo n : Nat) (w : Word) :
    (s.paintRows c lo n w).clearedWidth = s.clearedWidth := by
  rw [s.paintRows_eq c lo n w]
@[simp] theorem State.paintRows_inbuf (c : BitVec 6) (lo n : Nat) (w : Word) :
    (s.paintRows c lo n w).inbuf = s.inbuf := by
  rw [s.paintRows_eq c lo n w]
@[simp] theorem State.paintRows_pos (c : BitVec 6) (lo n : Nat) (w : Word) :
    (s.paintRows c lo n w).pos = s.pos := by
  rw [s.paintRows_eq c lo n w]
@[simp] theorem State.paintRows_endPos (c : BitVec 6) (lo n : Nat) (w : Word) :
    (s.paintRows c lo n w).endPos = s.endPos := by
  rw [s.paintRows_eq c lo n w]
@[simp] theorem State.paintRows_phase (c : BitVec 6) (lo n : Nat) (w : Word) :
    (s.paintRows c lo n w).phase = s.phase := by
  rw [s.paintRows_eq c lo n w]
@[simp] theorem State.paintRows_inited (c : BitVec 6) (lo n : Nat) (w : Word) :
    (s.paintRows c lo n w).inited = s.inited := by
  rw [s.paintRows_eq c lo n w]
@[simp] theorem State.paintRows_fault (c : BitVec 6) (lo n : Nat) (w : Word) :
    (s.paintRows c lo n w).fault = s.fault := by
  rw [s.paintRows_eq c lo n w]
@[simp] theorem State.paintRows_port (c : BitVec 6) (lo n : Nat) (w : Word) :
    (s.paintRows c lo n w).port = s.port := by
  rw [s.paintRows_eq c lo n w]
@[simp] theorem State.paintRows_out (c : BitVec 6) (lo n : Nat) (w : Word) :
    (s.paintRows c lo n w).out = s.out := by
  rw [s.paintRows_eq c lo n w]
@[simp] theorem State.paintRows_guardEpoch (c : BitVec 6) (lo n : Nat) (w : Word) :
    (s.paintRows c lo n w).guardEpoch = s.guardEpoch := by
  rw [s.paintRows_eq c lo n w]

/-! `State.putSingle` -/

/-- `put_single` changes the row buffers only. -/
theorem State.putSingle_only (c : BitVec 6) (w : Word) (col : Nat) :
    s.putSingle c w col = { s with rowbuf := (s.putSingle c w col).rowbuf } := by
  unfold State.putSingle
  split
  · exact s.paintRows_eq c col 1 w
  · rfl

@[simp] theorem State.putSingle_build (c : BitVec 6) (w : Word) (col : Nat) :
    (s.putSingle c w col).build = s.build := by
  rw [s.putSingle_only c w col]
@[simp] theorem State.putSingle_parser (c : BitVec 6) (w : Word) (col : Nat) :
    (s.putSingle c w col).parser = s.parser := by
  rw [s.putSingle_only c w col]
@[simp] theorem State.putSingle_params (c : BitVec 6) (w : Word) (col : Nat) :
    (s.putSingle c w col).params = s.params := by
  rw [s.putSingle_only c w col]
@[simp] theorem State.putSingle_pLength (c : BitVec 6) (w : Word) (col : Nat) :
    (s.putSingle c w col).pLength = s.pLength := by
  rw [s.putSingle_only c w col]
@[simp] theorem State.putSingle_cursor (c : BitVec 6) (w : Word) (col : Nat) :
    (s.putSingle c w col).cursor = s.cursor := by
  rw [s.putSingle_only c w col]
@[simp] theorem State.putSingle_color (c : BitVec 6) (w : Word) (col : Nat) :
    (s.putSingle c w col).color = s.color := by
  rw [s.putSingle_only c w col]
@[simp] theorem State.putSingle_height (c : BitVec 6) (w : Word) (col : Nat) :
    (s.putSingle c w col).height = s.height := by
  rw [s.putSingle_only c w col]
@[simp] theorem State.putSingle_rNum (c : BitVec 6) (w : Word) (col : Nat) :
    (s.putSingle c w col).rNum = s.rNum := by
  rw [s.putSingle_only c w col]
@[simp] theorem State.putSingle_rDenom (c : BitVec 6) (w : Word) (col : Nat) :
    (s.putSingle c w col).rDenom = s.rDenom := by
  rw [s.putSingle_only c w col]
@[simp] theorem State.putSingle_rWidth (c : BitVec 6) (w : Word) (col : Nat) :
    (s.putSingle c w col).rWidth = s.rWidth := by
  rw [s.putSingle_only c w col]
@[simp] theorem State.putSingle_rHeight (c : BitVec 6) (w : Word) (col : Nat) :
    (s.putSingle c w col).rHeight = s.rHeight := by
  rw [s.putSingle_only c w col]
@[simp] theorem State.putSingle_mode (c : BitVec 6) (w : Word) (col : Nat) :
    (s.putSingle c w col).mode = s.mode := by
  rw [s.putSingle_only c w col]
@[simp] theorem State.putSingle_level (c : BitVec 6) (w : Word) (col : Nat) :
    (s.putSingle c w col).level = s.level := by
  rw [s.putSingle_only c w col]
@[simp] theorem State.putSingle_truncate (c : BitVec 6) (w : Word) (col : Nat) :
    (s.putSingle c w col).truncate = s.truncate := by
  rw [s.putSingle_only c w col]
@[simp] theorem State.putSingle_abort (c : BitVec 6) (w : Word) (col : Nat) :
    (s.putSingle c w col).abort = s.abort := by
  rw [s.putSingle_only c w col]
@[simp] theorem State.putSingle_paletteLength (c : BitVec 6) (w : Word) (col : Nat) :
    (s.putSingle c w col).paletteLength = s.paletteLength := by
  rw [s.putSingle_only c w col]
@[simp] theorem State.putSingle_palette (c : BitVec 6) (w : Word) (col : Nat) :
    (s.putSingle c w col).palette = s.palette := by
  rw [s.putSingle_only c w col]
@[simp] theorem State.putSingle_fillColor (c : BitVec 6) (w : Word) (col : Nat) :
    (s.putSingle c w col).fillColor = s.fillColor := by
  rw [s.putSingle_only c w col]
@[simp] theorem State.putSingle_width (c : BitVec 6) (w : Word) (col : Nat) :
    (s.putSingle c w col).width = s.width := by
  rw [s.putSingle_only c w col]
@[simp] theorem State.putSingle_realWidth (c : BitVec 6) (w : Word) (col : Nat) :
    (s.putSingle c w col).realWidth = s.realWidth := by
  rw [s.putSingle_only c w col]
@[simp] theorem State.putSingle_clearedWidth (c : BitVec 6) (w : Word) (col : Nat) :
    (s.putSingle c w col).clearedWidth = s.clearedWidth := by
  rw [s.putSingle_only c w col]
@[simp] theorem State.putSingle_inbuf (c : BitVec 6) (w : Word) (col : Nat) :
    (s.putSingle c w col).inbuf = s.inbuf := by
  rw [s.putSingle_only c w col]
@[simp] theorem State.putSingle_pos (c : BitVec 6) (w : Word) (col : Nat) :
    (s.putSingle c w col).pos = s.pos := by
  rw [s.putSingle_only c w col]
@[simp] theorem State.putSingle_endPos (c : BitVec 6) (w : Word) (col : Nat) :
    (s.putSingle c w col).endPos = s.endPos := by
  rw [s.putSingle_only c w col]
@[simp] theorem State.putSingle_phase (c : BitVec 6) (w : Word) (col : Nat) :
    (s.putSingle c w col).phase = s.phase := by
  rw [s.putSingle_only c w col]
@[simp] theorem State.putSingle_inited (c : BitVec 6) (w : Word) (col : Nat) :
    (s.putSingle c w col).inited = s.inited := by
  rw [s.putSingle_only c w col]
@[simp] theorem State.putSingle_fault (c : BitVec 6) (w : Word) (col : Nat) :
    (s.putSingle c w col).fault = s.fault := by
  rw [s.putSingle_only c w col]
@[simp] theorem State.putSingle_port (c : BitVec 6) (w : Word) (col : Nat) :
    (s.putSingle c w col).port = s.port := by
  rw [s.putSingle_only c w col]
@[simp] theorem State.putSingle_out (c : BitVec 6) (w : Word) (col : Nat) :
    (s.putSingle c w col).out = s.out := by
  rw [s.putSingle_only c w col]
@[simp] theorem State.putSingle_guardEpoch (c : BitVec 6) (w : Word) (col : Nat) :
    (s.putSingle c w col).guardEpoch = s.guardEpoch := by
  rw [s.putSingle_only c w col]

/-! `State.putRun` -/

/-- `put_run` changes the row buffers only. -/
theorem State.putRun_only (c : BitVec 6) (w : Word) (n col : Nat) :
    s.putRun c w n col = { s with rowbuf := (s.putRun c w n col).rowbuf } :=
  s.paintRows_eq c col (s.runLength n col) w

@[simp] theorem State.putRun_build (c : BitVec 6) (w : Word) (n col : Nat) :
    (s.putRun c w n col).build = s.build := by
  rw [s.putRun_only c w n col]
@[simp] theorem State.putRun_parser (c : BitVec 6) (w : Word) (n col : Nat) :
    (s.putRun c w n col).parser = s.parser := by
  rw [s.putRun_only c w n col]
@[simp] theorem State.putRun_params (c : BitVec 6) (w : Word) (n col : Nat) :
    (s.putRun c w n col).params = s.params := by
  rw [s.putRun_only c w n col]
@[simp] theorem State.putRun_pLength (c : BitVec 6) (w : Word) (n col : Nat) :
    (s.putRun c w n col).pLength = s.pLength := by
  rw [s.putRun_only c w n col]
@[simp] theorem State.putRun_cursor (c : BitVec 6) (w : Word) (n col : Nat) :
    (s.putRun c w n col).cursor = s.cursor := by
  rw [s.putRun_only c w n col]
@[simp] theorem State.putRun_color (c : BitVec 6) (w : Word) (n col : Nat) :
    (s.putRun c w n col).color = s.color := by
  rw [s.putRun_only c w n col]
@[simp] theorem State.putRun_height (c : BitVec 6) (w : Word) (n col : Nat) :
    (s.putRun c w n col).height = s.height := by
  rw [s.putRun_only c w n col]
@[simp] theorem State.putRun_rNum (c : BitVec 6) (w : Word) (n col : Nat) :
    (s.putRun c w n col).rNum = s.rNum := by
  rw [s.putRun_only c w n col]
@[simp] theorem State.putRun_rDenom (c : BitVec 6) (w : Word) (n col : Nat) :
    (s.putRun c w n col).rDenom = s.rDenom := by
  rw [s.putRun_only c w n col]
@[simp] theorem State.putRun_rWidth (c : BitVec 6) (w : Word) (n col : Nat) :
    (s.putRun c w n col).rWidth = s.rWidth := by
  rw [s.putRun_only c w n col]
@[simp] theorem State.putRun_rHeight (c : BitVec 6) (w : Word) (n col : Nat) :
    (s.putRun c w n col).rHeight = s.rHeight := by
  rw [s.putRun_only c w n col]
@[simp] theorem State.putRun_mode (c : BitVec 6) (w : Word) (n col : Nat) :
    (s.putRun c w n col).mode = s.mode := by
  rw [s.putRun_only c w n col]
@[simp] theorem State.putRun_level (c : BitVec 6) (w : Word) (n col : Nat) :
    (s.putRun c w n col).level = s.level := by
  rw [s.putRun_only c w n col]
@[simp] theorem State.putRun_truncate (c : BitVec 6) (w : Word) (n col : Nat) :
    (s.putRun c w n col).truncate = s.truncate := by
  rw [s.putRun_only c w n col]
@[simp] theorem State.putRun_abort (c : BitVec 6) (w : Word) (n col : Nat) :
    (s.putRun c w n col).abort = s.abort := by
  rw [s.putRun_only c w n col]
@[simp] theorem State.putRun_paletteLength (c : BitVec 6) (w : Word) (n col : Nat) :
    (s.putRun c w n col).paletteLength = s.paletteLength := by
  rw [s.putRun_only c w n col]
@[simp] theorem State.putRun_palette (c : BitVec 6) (w : Word) (n col : Nat) :
    (s.putRun c w n col).palette = s.palette := by
  rw [s.putRun_only c w n col]
@[simp] theorem State.putRun_fillColor (c : BitVec 6) (w : Word) (n col : Nat) :
    (s.putRun c w n col).fillColor = s.fillColor := by
  rw [s.putRun_only c w n col]
@[simp] theorem State.putRun_width (c : BitVec 6) (w : Word) (n col : Nat) :
    (s.putRun c w n col).width = s.width := by
  rw [s.putRun_only c w n col]
@[simp] theorem State.putRun_realWidth (c : BitVec 6) (w : Word) (n col : Nat) :
    (s.putRun c w n col).realWidth = s.realWidth := by
  rw [s.putRun_only c w n col]
@[simp] theorem State.putRun_clearedWidth (c : BitVec 6) (w : Word) (n col : Nat) :
    (s.putRun c w n col).clearedWidth = s.clearedWidth := by
  rw [s.putRun_only c w n col]
@[simp] theorem State.putRun_inbuf (c : BitVec 6) (w : Word) (n col : Nat) :
    (s.putRun c w n col).inbuf = s.inbuf := by
  rw [s.putRun_only c w n col]
@[simp] theorem State.putRun_pos (c : BitVec 6) (w : Word) (n col : Nat) :
    (s.putRun c w n col).pos = s.pos := by
  rw [s.putRun_only c w n col]
@[simp] theorem State.putRun_endPos (c : BitVec 6) (w : Word) (n col : Nat) :
    (s.putRun c w n col).endPos = s.endPos := by
  rw [s.putRun_only c w n col]
@[simp] theorem State.putRun_phase (c : BitVec 6) (w : Word) (n col : Nat) :
    (s.putRun c w n col).phase = s.phase := by
  rw [s.putRun_only c w n col]
@[simp] theorem State.putRun_inited (c : BitVec 6) (w : Word) (n col : Nat) :
    (s.putRun c w n col).inited = s.inited := by
  rw [s.putRun_only c w n col]
@[simp] theorem State.putRun_fault (c : BitVec 6) (w : Word) (n col : Nat) :
    (s.putRun c w n col).fault = s.fault := by
  rw [s.putRun_only c w n col]
@[simp] theorem State.putRun_port (c : BitVec 6) (w : Word) (n col : Nat) :
    (s.putRun c w n col).port = s.port := by
  rw [s.putRun_only c w n col]
@[simp] theorem State.putRun_out (c : BitVec 6) (w : Word) (n col : Nat) :
    (s.putRun c w n col).out = s.out := by
  rw [s.putRun_only c w n col]
@[simp] theorem State.putRun_guardEpoch (c : BitVec 6) (w : Word) (n col : Nat) :
    (s.putRun c w n col).guardEpoch = s.guardEpoch := by
  rw [s.putRun_only c w n col]

/-! `State.clearUpto` -/

/-- `clear_upto` changes the row buffers and the frontier only. -/
theorem State.clearUpto_only (limit : Nat) : s.clearUpto limit =
    { s with rowbuf := (s.clearUpto limit).rowbuf, clearedWidth := (s.clearUpto limit).clearedWidth } := by
  have key : ∀ fuel (t : State), State.clearLoop limit fuel t =
      { t with
        rowbuf := (State.clearLoop limit fuel t).rowbuf
        clearedWidth := (State.clearLoop limit fuel t).clearedWidth } := by
    intro fuel
    induction fuel with
    | zero => intro t; rfl
    | succ fuel ih =>
      intro t
      rw [State.clearLoop]
      split
      · have e : t.clearChunk =
            { t with rowbuf := t.clearChunk.rowbuf, clearedWidth := t.clearChunk.clearedWidth } := by
          obtain ⟨m, h, _⟩ := t.paintRows_spec 63 t.clearedWidth
            (min (t.clearedWidth + 128) t.build.rowCap - t.clearedWidth) t.fillColor
          simp only [State.clearChunk, State.fillRowRange, h]
        rw [ih t.clearChunk]
        rw [e]
      · rfl
  exact key limit s

@[simp] theorem State.clearUpto_build (limit : Nat) :
    (s.clearUpto limit).build = s.build := by
  rw [s.clearUpto_only limit]
@[simp] theorem State.clearUpto_parser (limit : Nat) :
    (s.clearUpto limit).parser = s.parser := by
  rw [s.clearUpto_only limit]
@[simp] theorem State.clearUpto_params (limit : Nat) :
    (s.clearUpto limit).params = s.params := by
  rw [s.clearUpto_only limit]
@[simp] theorem State.clearUpto_pLength (limit : Nat) :
    (s.clearUpto limit).pLength = s.pLength := by
  rw [s.clearUpto_only limit]
@[simp] theorem State.clearUpto_cursor (limit : Nat) :
    (s.clearUpto limit).cursor = s.cursor := by
  rw [s.clearUpto_only limit]
@[simp] theorem State.clearUpto_color (limit : Nat) :
    (s.clearUpto limit).color = s.color := by
  rw [s.clearUpto_only limit]
@[simp] theorem State.clearUpto_height (limit : Nat) :
    (s.clearUpto limit).height = s.height := by
  rw [s.clearUpto_only limit]
@[simp] theorem State.clearUpto_rNum (limit : Nat) : (s.clearUpto limit).rNum = s.rNum := by rw [s.clearUpto_only limit]
@[simp] theorem State.clearUpto_rDenom (limit : Nat) :
    (s.clearUpto limit).rDenom = s.rDenom := by
  rw [s.clearUpto_only limit]
@[simp] theorem State.clearUpto_rWidth (limit : Nat) :
    (s.clearUpto limit).rWidth = s.rWidth := by
  rw [s.clearUpto_only limit]
@[simp] theorem State.clearUpto_rHeight (limit : Nat) :
    (s.clearUpto limit).rHeight = s.rHeight := by
  rw [s.clearUpto_only limit]
@[simp] theorem State.clearUpto_mode (limit : Nat) : (s.clearUpto limit).mode = s.mode := by rw [s.clearUpto_only limit]
@[simp] theorem State.clearUpto_level (limit : Nat) :
    (s.clearUpto limit).level = s.level := by
  rw [s.clearUpto_only limit]
@[simp] theorem State.clearUpto_truncate (limit : Nat) :
    (s.clearUpto limit).truncate = s.truncate := by
  rw [s.clearUpto_only limit]
@[simp] theorem State.clearUpto_abort (limit : Nat) :
    (s.clearUpto limit).abort = s.abort := by
  rw [s.clearUpto_only limit]
@[simp] theorem State.clearUpto_paletteLength (limit : Nat) :
    (s.clearUpto limit).paletteLength = s.paletteLength := by
  rw [s.clearUpto_only limit]
@[simp] theorem State.clearUpto_palette (limit : Nat) :
    (s.clearUpto limit).palette = s.palette := by
  rw [s.clearUpto_only limit]
@[simp] theorem State.clearUpto_fillColor (limit : Nat) :
    (s.clearUpto limit).fillColor = s.fillColor := by
  rw [s.clearUpto_only limit]
@[simp] theorem State.clearUpto_width (limit : Nat) :
    (s.clearUpto limit).width = s.width := by
  rw [s.clearUpto_only limit]
@[simp] theorem State.clearUpto_realWidth (limit : Nat) :
    (s.clearUpto limit).realWidth = s.realWidth := by
  rw [s.clearUpto_only limit]
@[simp] theorem State.clearUpto_inbuf (limit : Nat) :
    (s.clearUpto limit).inbuf = s.inbuf := by
  rw [s.clearUpto_only limit]
@[simp] theorem State.clearUpto_pos (limit : Nat) : (s.clearUpto limit).pos = s.pos := by rw [s.clearUpto_only limit]
@[simp] theorem State.clearUpto_endPos (limit : Nat) :
    (s.clearUpto limit).endPos = s.endPos := by
  rw [s.clearUpto_only limit]
@[simp] theorem State.clearUpto_phase (limit : Nat) :
    (s.clearUpto limit).phase = s.phase := by
  rw [s.clearUpto_only limit]
@[simp] theorem State.clearUpto_inited (limit : Nat) :
    (s.clearUpto limit).inited = s.inited := by
  rw [s.clearUpto_only limit]
@[simp] theorem State.clearUpto_fault (limit : Nat) :
    (s.clearUpto limit).fault = s.fault := by
  rw [s.clearUpto_only limit]
@[simp] theorem State.clearUpto_port (limit : Nat) : (s.clearUpto limit).port = s.port := by rw [s.clearUpto_only limit]
@[simp] theorem State.clearUpto_out (limit : Nat) : (s.clearUpto limit).out = s.out := by rw [s.clearUpto_only limit]
@[simp] theorem State.clearUpto_guardEpoch (limit : Nat) :
    (s.clearUpto limit).guardEpoch = s.guardEpoch := by
  rw [s.clearUpto_only limit]

/-! `State.resetLineM1` -/

/-- `reset_line_m1` changes the row buffers and the frontier only. -/
theorem State.resetLineM1_only : s.resetLineM1 =
    { s with
      rowbuf := s.resetLineM1.rowbuf
      clearedWidth := min (4 + 128 * (if 0 < s.width then (s.width + 127) / 128 else 1)) s.build.rowCap } := by
  obtain ⟨m, h, _⟩ := s.paintRows_spec 63 4
    (min (4 + 128 * (if 0 < s.width then (s.width + 127) / 128 else 1)) s.build.rowCap - 4) s.fillColor
  simp only [State.resetLineM1, State.fillRowRange, h]

@[simp] theorem State.resetLineM1_build : s.resetLineM1.build = s.build := by rw [s.resetLineM1_only]
@[simp] theorem State.resetLineM1_parser : s.resetLineM1.parser = s.parser := by rw [s.resetLineM1_only]
@[simp] theorem State.resetLineM1_params : s.resetLineM1.params = s.params := by rw [s.resetLineM1_only]
@[simp] theorem State.resetLineM1_pLength : s.resetLineM1.pLength = s.pLength := by rw [s.resetLineM1_only]
@[simp] theorem State.resetLineM1_cursor : s.resetLineM1.cursor = s.cursor := by rw [s.resetLineM1_only]
@[simp] theorem State.resetLineM1_color : s.resetLineM1.color = s.color := by rw [s.resetLineM1_only]
@[simp] theorem State.resetLineM1_height : s.resetLineM1.height = s.height := by rw [s.resetLineM1_only]
@[simp] theorem State.resetLineM1_rNum : s.resetLineM1.rNum = s.rNum := by rw [s.resetLineM1_only]
@[simp] theorem State.resetLineM1_rDenom : s.resetLineM1.rDenom = s.rDenom := by rw [s.resetLineM1_only]
@[simp] theorem State.resetLineM1_rWidth : s.resetLineM1.rWidth = s.rWidth := by rw [s.resetLineM1_only]
@[simp] theorem State.resetLineM1_rHeight : s.resetLineM1.rHeight = s.rHeight := by rw [s.resetLineM1_only]
@[simp] theorem State.resetLineM1_mode : s.resetLineM1.mode = s.mode := by rw [s.resetLineM1_only]
@[simp] theorem State.resetLineM1_level : s.resetLineM1.level = s.level := by rw [s.resetLineM1_only]
@[simp] theorem State.resetLineM1_truncate : s.resetLineM1.truncate = s.truncate := by rw [s.resetLineM1_only]
@[simp] theorem State.resetLineM1_abort : s.resetLineM1.abort = s.abort := by rw [s.resetLineM1_only]
@[simp] theorem State.resetLineM1_paletteLength :
    s.resetLineM1.paletteLength = s.paletteLength := by
  rw [s.resetLineM1_only]
@[simp] theorem State.resetLineM1_palette : s.resetLineM1.palette = s.palette := by rw [s.resetLineM1_only]
@[simp] theorem State.resetLineM1_fillColor : s.resetLineM1.fillColor = s.fillColor := by rw [s.resetLineM1_only]
@[simp] theorem State.resetLineM1_width : s.resetLineM1.width = s.width := by rw [s.resetLineM1_only]
@[simp] theorem State.resetLineM1_realWidth : s.resetLineM1.realWidth = s.realWidth := by rw [s.resetLineM1_only]
@[simp] theorem State.resetLineM1_clearedWidth :
    s.resetLineM1.clearedWidth = min (4 + 128 * (if 0 < s.width then (s.width + 127) / 128 else 1)) s.build.rowCap := by
  rw [s.resetLineM1_only]
@[simp] theorem State.resetLineM1_inbuf : s.resetLineM1.inbuf = s.inbuf := by rw [s.resetLineM1_only]
@[simp] theorem State.resetLineM1_pos : s.resetLineM1.pos = s.pos := by rw [s.resetLineM1_only]
@[simp] theorem State.resetLineM1_endPos : s.resetLineM1.endPos = s.endPos := by rw [s.resetLineM1_only]
@[simp] theorem State.resetLineM1_phase : s.resetLineM1.phase = s.phase := by rw [s.resetLineM1_only]
@[simp] theorem State.resetLineM1_inited : s.resetLineM1.inited = s.inited := by rw [s.resetLineM1_only]
@[simp] theorem State.resetLineM1_fault : s.resetLineM1.fault = s.fault := by rw [s.resetLineM1_only]
@[simp] theorem State.resetLineM1_port : s.resetLineM1.port = s.port := by rw [s.resetLineM1_only]
@[simp] theorem State.resetLineM1_out : s.resetLineM1.out = s.out := by rw [s.resetLineM1_only]
@[simp] theorem State.resetLineM1_guardEpoch : s.resetLineM1.guardEpoch = s.guardEpoch := by rw [s.resetLineM1_only]

/-! `State.resetLineM2` -/

/-- `reset_line_m2` changes the row buffers only. -/
theorem State.resetLineM2_only : s.resetLineM2 = { s with rowbuf := s.resetLineM2.rowbuf } :=
  s.paintRows_eq 63 4 (s.width - 4) s.fillColor

@[simp] theorem State.resetLineM2_build : s.resetLineM2.build = s.build := by rw [s.resetLineM2_only]
@[simp] theorem State.resetLineM2_parser : s.resetLineM2.parser = s.parser := by rw [s.resetLineM2_only]
@[simp] theorem State.resetLineM2_params : s.resetLineM2.params = s.params := by rw [s.resetLineM2_only]
@[simp] theorem State.resetLineM2_pLength : s.resetLineM2.pLength = s.pLength := by rw [s.resetLineM2_only]
@[simp] theorem State.resetLineM2_cursor : s.resetLineM2.cursor = s.cursor := by rw [s.resetLineM2_only]
@[simp] theorem State.resetLineM2_color : s.resetLineM2.color = s.color := by rw [s.resetLineM2_only]
@[simp] theorem State.resetLineM2_height : s.resetLineM2.height = s.height := by rw [s.resetLineM2_only]
@[simp] theorem State.resetLineM2_rNum : s.resetLineM2.rNum = s.rNum := by rw [s.resetLineM2_only]
@[simp] theorem State.resetLineM2_rDenom : s.resetLineM2.rDenom = s.rDenom := by rw [s.resetLineM2_only]
@[simp] theorem State.resetLineM2_rWidth : s.resetLineM2.rWidth = s.rWidth := by rw [s.resetLineM2_only]
@[simp] theorem State.resetLineM2_rHeight : s.resetLineM2.rHeight = s.rHeight := by rw [s.resetLineM2_only]
@[simp] theorem State.resetLineM2_mode : s.resetLineM2.mode = s.mode := by rw [s.resetLineM2_only]
@[simp] theorem State.resetLineM2_level : s.resetLineM2.level = s.level := by rw [s.resetLineM2_only]
@[simp] theorem State.resetLineM2_truncate : s.resetLineM2.truncate = s.truncate := by rw [s.resetLineM2_only]
@[simp] theorem State.resetLineM2_abort : s.resetLineM2.abort = s.abort := by rw [s.resetLineM2_only]
@[simp] theorem State.resetLineM2_paletteLength :
    s.resetLineM2.paletteLength = s.paletteLength := by
  rw [s.resetLineM2_only]
@[simp] theorem State.resetLineM2_palette : s.resetLineM2.palette = s.palette := by rw [s.resetLineM2_only]
@[simp] theorem State.resetLineM2_fillColor : s.resetLineM2.fillColor = s.fillColor := by rw [s.resetLineM2_only]
@[simp] theorem State.resetLineM2_width : s.resetLineM2.width = s.width := by rw [s.resetLineM2_only]
@[simp] theorem State.resetLineM2_realWidth : s.resetLineM2.realWidth = s.realWidth := by rw [s.resetLineM2_only]
@[simp] theorem State.resetLineM2_clearedWidth :
    s.resetLineM2.clearedWidth = s.clearedWidth := by
  rw [s.resetLineM2_only]
@[simp] theorem State.resetLineM2_inbuf : s.resetLineM2.inbuf = s.inbuf := by rw [s.resetLineM2_only]
@[simp] theorem State.resetLineM2_pos : s.resetLineM2.pos = s.pos := by rw [s.resetLineM2_only]
@[simp] theorem State.resetLineM2_endPos : s.resetLineM2.endPos = s.endPos := by rw [s.resetLineM2_only]
@[simp] theorem State.resetLineM2_phase : s.resetLineM2.phase = s.phase := by rw [s.resetLineM2_only]
@[simp] theorem State.resetLineM2_inited : s.resetLineM2.inited = s.inited := by rw [s.resetLineM2_only]
@[simp] theorem State.resetLineM2_fault : s.resetLineM2.fault = s.fault := by rw [s.resetLineM2_only]
@[simp] theorem State.resetLineM2_port : s.resetLineM2.port = s.port := by rw [s.resetLineM2_only]
@[simp] theorem State.resetLineM2_out : s.resetLineM2.out = s.out := by rw [s.resetLineM2_only]
@[simp] theorem State.resetLineM2_guardEpoch : s.resetLineM2.guardEpoch = s.guardEpoch := by rw [s.resetLineM2_only]

/-! `State.resolveColor` -/

/-- `resolve_color` changes the palette and the color only (R83). -/
theorem State.resolveColor_only :
    s.resolveColor = { s with palette := s.resolveColor.palette, color := s.resolveColor.color } := by
  rcases s.resolveColor_cases with ⟨_, h⟩ | ⟨_, _, h⟩ | ⟨_, _, h⟩ <;> rw [h]

@[simp] theorem State.resolveColor_build : s.resolveColor.build = s.build := by rw [s.resolveColor_only]
@[simp] theorem State.resolveColor_parser : s.resolveColor.parser = s.parser := by rw [s.resolveColor_only]
@[simp] theorem State.resolveColor_params : s.resolveColor.params = s.params := by rw [s.resolveColor_only]
@[simp] theorem State.resolveColor_pLength : s.resolveColor.pLength = s.pLength := by rw [s.resolveColor_only]
@[simp] theorem State.resolveColor_cursor : s.resolveColor.cursor = s.cursor := by rw [s.resolveColor_only]
@[simp] theorem State.resolveColor_height : s.resolveColor.height = s.height := by rw [s.resolveColor_only]
@[simp] theorem State.resolveColor_rNum : s.resolveColor.rNum = s.rNum := by rw [s.resolveColor_only]
@[simp] theorem State.resolveColor_rDenom : s.resolveColor.rDenom = s.rDenom := by rw [s.resolveColor_only]
@[simp] theorem State.resolveColor_rWidth : s.resolveColor.rWidth = s.rWidth := by rw [s.resolveColor_only]
@[simp] theorem State.resolveColor_rHeight : s.resolveColor.rHeight = s.rHeight := by rw [s.resolveColor_only]
@[simp] theorem State.resolveColor_mode : s.resolveColor.mode = s.mode := by rw [s.resolveColor_only]
@[simp] theorem State.resolveColor_level : s.resolveColor.level = s.level := by rw [s.resolveColor_only]
@[simp] theorem State.resolveColor_truncate : s.resolveColor.truncate = s.truncate := by rw [s.resolveColor_only]
@[simp] theorem State.resolveColor_abort : s.resolveColor.abort = s.abort := by rw [s.resolveColor_only]
@[simp] theorem State.resolveColor_paletteLength :
    s.resolveColor.paletteLength = s.paletteLength := by
  rw [s.resolveColor_only]
@[simp] theorem State.resolveColor_rowbuf : s.resolveColor.rowbuf = s.rowbuf := by rw [s.resolveColor_only]
@[simp] theorem State.resolveColor_fillColor : s.resolveColor.fillColor = s.fillColor := by rw [s.resolveColor_only]
@[simp] theorem State.resolveColor_width : s.resolveColor.width = s.width := by rw [s.resolveColor_only]
@[simp] theorem State.resolveColor_realWidth : s.resolveColor.realWidth = s.realWidth := by rw [s.resolveColor_only]
@[simp] theorem State.resolveColor_clearedWidth :
    s.resolveColor.clearedWidth = s.clearedWidth := by
  rw [s.resolveColor_only]
@[simp] theorem State.resolveColor_inbuf : s.resolveColor.inbuf = s.inbuf := by rw [s.resolveColor_only]
@[simp] theorem State.resolveColor_pos : s.resolveColor.pos = s.pos := by rw [s.resolveColor_only]
@[simp] theorem State.resolveColor_endPos : s.resolveColor.endPos = s.endPos := by rw [s.resolveColor_only]
@[simp] theorem State.resolveColor_phase : s.resolveColor.phase = s.phase := by rw [s.resolveColor_only]
@[simp] theorem State.resolveColor_inited : s.resolveColor.inited = s.inited := by rw [s.resolveColor_only]
@[simp] theorem State.resolveColor_fault : s.resolveColor.fault = s.fault := by rw [s.resolveColor_only]
@[simp] theorem State.resolveColor_port : s.resolveColor.port = s.port := by rw [s.resolveColor_only]
@[simp] theorem State.resolveColor_out : s.resolveColor.out = s.out := by rw [s.resolveColor_only]
@[simp] theorem State.resolveColor_guardEpoch : s.resolveColor.guardEpoch = s.guardEpoch := by rw [s.resolveColor_only]

end Sys2Proof.Machine
end

