-- ==== Sys2Proof/Laws/Exec.lean ====
section
/-! SUPPORT. What a turn, a commit, a refused transaction and each byte rule can do, said once: the step's case split and
the meaning of each byte by mode and state. -/

namespace Sys2Proof.Machine

/-! The step -/

theorem State.byteTurn_cases (s : State) (h : s.phase = .run) (q : List Request)
    (e : s.turn = ({ s with port := q } : State).byteTurn) :
    (s.turn = .finish { s with port := q } ∧ s.phase = .run ∧ s.pos = s.endPos) ∨
    (s.turn = .run (decodeByte (s.byteAt .inbuf s.pos)) { s with port := q } ∧ s.phase = .run ∧
      s.pos ≠ s.endPos ∧ s.pos < s.build.chunkSize) ∨
    (s.turn = .stop .noSuchElement ∧ s.phase = .run ∧ s.pos ≠ s.endPos ∧ s.build.chunkSize ≤ s.pos) := by
  rw [e, State.byteTurn]
  by_cases h1 : s.pos = s.endPos
  · exact .inl ⟨by rw [if_pos h1], h, h1⟩
  · by_cases h2 : s.pos < s.build.chunkSize
    · exact .inr (.inl ⟨by rw [if_neg h1, if_pos h2]; rfl, h, h1, h2⟩)
    · exact .inr (.inr ⟨by rw [if_neg h1, if_neg h2], h, h1, by omega⟩)

/-- Everything a turn can be: a wait, a move of the block with the port's arrival counted down, or the first pending
transaction taken from the port. -/
theorem State.turn_cases (s : State) :
    (s.turn = .wait ∧ s.phase ≠ .run ∧ s.port = []) ∨
    ∃ q, ((s.turn = .finish { s with port := q } ∧ s.phase = .run ∧ s.pos = s.endPos) ∨
        (s.turn = .run (decodeByte (s.byteAt .inbuf s.pos)) { s with port := q } ∧ s.phase = .run ∧
          s.pos ≠ s.endPos ∧ s.pos < s.build.chunkSize) ∨
        (s.turn = .stop .noSuchElement ∧ s.phase = .run ∧ s.pos ≠ s.endPos ∧ s.build.chunkSize ≤ s.pos)) ∨
      ∃ r, s.port = r :: q ∧
        ((∃ i, decodeCommand r.word = .ok i ∧ s.turn = .run i { s with port := q }) ∨
          (∃ e, decodeCommand r.word = .error e ∧ s.turn = .bad r.word { s with port := q })) := by
  have host : ∀ r q, s.port = r :: q → s.turn = s.hostTurn r q →
      ∃ r, s.port = r :: q ∧
        ((∃ i, decodeCommand r.word = .ok i ∧ s.turn = .run i { s with port := q }) ∨
          (∃ e, decodeCommand r.word = .error e ∧ s.turn = .bad r.word { s with port := q })) := by
    intro r q hq e
    refine ⟨r, hq, ?_⟩
    rw [e, State.hostTurn]
    cases hd : decodeCommand r.word with
    | ok i => exact .inl ⟨i, rfl, rfl⟩
    | error er => exact .inr ⟨er, rfl, rfl⟩
  by_cases hr : s.phase = .run
  · cases hp : s.port with
    | nil =>
      refine .inr ⟨[], .inl (s.byteTurn_cases hr [] ?_)⟩
      rw [State.turn, hp]; simp only [hr, if_true]; rw [← hr, ← hp]
    | cons r q =>
      cases ha : r.arrival with
      | synchronous =>
        refine .inr ⟨r :: q, .inl (s.byteTurn_cases hr _ ?_)⟩
        rw [State.turn, hp]; simp only [hr, if_true, ha]; rw [← hr, ← hp]
      | afterBytes n =>
        cases n with
        | zero =>
          rw [← hp]
          refine .inr ⟨q, .inr (host r q hp ?_)⟩
          rw [State.turn, hp]; simp only [hr, if_true, ha]
        | succ n =>
          refine .inr ⟨⟨.afterBytes n, r.word⟩ :: q, .inl (s.byteTurn_cases hr _ ?_)⟩
          rw [State.turn, hp]; simp only [hr, if_true, ha]
  · cases hp : s.port with
    | nil => exact .inl ⟨by rw [State.turn, hp]; simp only; rw [if_neg hr], hr, rfl⟩
    | cons r q =>
      rw [← hp]
      refine .inr ⟨q, .inr (host r q hp ?_)⟩
      rw [State.turn, hp]; simp only; rw [if_neg hr]

/-- The command port carries the six transactions only (R70). -/
theorem decodeCommand_cases {w : TxnWord} {i : Instr} (h : decodeCommand w = .ok i) :
    (∃ c f p u, i = .init c f p u) ∨ (∃ a e, i = .decode a e) ∨ i = .currentWidth ∨ (∃ v, i = .answer v) ∨
      (∃ sp k, i = .hostRead sp k) ∨ ∃ sp k v, i = .hostWrite sp k v := by
  unfold decodeCommand at h
  simp only at h
  (repeat' split at h) <;> cases h <;> simp

/-! Refusals -/

/-- A refused transaction changes nothing but that `fault` gains its record (R167). -/
theorem State.refuse_into (s : State) (c : FaultCode) (x : Transaction) : s.refusedInto (s.refuse c x) c x := by
  refine ⟨rfl, fun f => ?_⟩
  simp only [State.refuse]
  split
  · next h => exact ⟨.inl, fun h' => h'.elim id fun e => e ▸ h⟩
  · simp

/-- The set of records stays a set. -/
theorem State.refuse_nodup (s : State) (c : FaultCode) (x : Transaction) (h : s.fault.Nodup) :
    (s.refuse c x).fault.Nodup := by
  rw [State.refuse_fault]
  split
  · exact h
  · next hn =>
    rw [List.nodup_append]
    exact ⟨h, by simp, fun a ha b hb e => hn (List.mem_singleton.1 hb ▸ e ▸ ha)⟩

/-! The invariant -/

/-- The invariant does not read what is pending, what was sent, the current color and the guard epoch, and of `fault`
only that it is a set. -/
theorem State.Inv.of_same {s t : State} (h : s.Inv)
    (e : t = { s with
      port := t.port, out := t.out, fault := t.fault, guardEpoch := t.guardEpoch, color := t.color })
    (hf : t.fault.Nodup) : t.Inv := by
  rw [e]
  obtain ⟨a, b, ⟨c1, c2, c3, c4, c5, c6⟩, -, n, r⟩ := h
  refine ⟨a, b, ⟨c1, c2, c3, c4, c5, c6⟩, hf, n, fun hi => ?_⟩
  obtain ⟨r1, r2, r3, r4, r5, r6, r7, r8, r9, r10, r11, r12, r13, r14, r15, r16, r17, r18, r19, r20⟩ := r hi
  exact ⟨r1, r2, r3, r4, r5, r6, r7, r8, r9, r10, r11, r12, r13, r14, r15, r16, r17, r18, r19, r20⟩

/-- The invariant does not read the port. -/
theorem State.Inv.withPort {s : State} (h : s.Inv) (q : List Request) : ({ s with port := q } : State).Inv :=
  h.of_same rfl h.faults

/-! Paints, as `painted` says it -/

theorem State.painted_of_read {s t : State} {mask : BitVec 6} {lo n : Nat} {w : Word} {m : Mem} (ht : t.rowbuf = m)
    (h : ∀ x, (inRun s.build mask lo n x → m.read? x = some (w.byte (x % 4))) ∧
      (¬ inRun s.build mask lo n x → m.read? x = s.rowbuf.read? x)) : s.painted t mask lo n w := by
  intro x
  have e : t.mem .rowbuf = m := ht
  constructor
  · intro hx; rw [State.byteAt, e, (h x).1 hx]
  · intro hx; rw [State.byteAt, e, (h x).2 hx]; rfl

/-- `paintRows` paints its run. -/
theorem State.paintRows_painted (s : State) (c : BitVec 6) (lo n : Nat) (w : Word) :
    s.painted (s.paintRows c lo n w) c lo n w := by
  obtain ⟨m, h1, h2, _⟩ := s.paintRows_spec c lo n w
  rw [h1]; exact State.painted_of_read rfl h2

/-- `put_single` paints one slot, or none at the right edge (R90). -/
theorem State.putSingle_painted (s : State) (c : BitVec 6) (w : Word) (col : Nat) :
    s.painted (s.putSingle c w col) c col (if col < s.build.maxWidth then 1 else 0) w := by
  rw [State.putSingle_eq]
  split
  · exact s.paintRows_painted c col 1 w
  · exact fun x => ⟨fun h => absurd h (not_inRun_zero _ _ _ _), fun _ => rfl⟩

/-- `clear_upto` paints the slots between the old and the new frontier with the fill color (R141). -/
theorem State.clearUpto_painted (s : State) (limit : Nat) (hl : limit ≤ s.build.maxWidth) :
    (s.clearUpto limit).clearedWidth = clearedAfter s.build s.clearedWidth limit ∧
    s.painted (s.clearUpto limit) 63 s.clearedWidth (clearedAfter s.build s.clearedWidth limit - s.clearedWidth)
      s.fillColor := by
  obtain ⟨m, h1, h2, _⟩ := s.clearUpto_spec limit hl
  rw [h1]; exact ⟨rfl, State.painted_of_read rfl h2⟩

/-- `reset_line_m1` with `width = 0` clears the first chunk (R139). -/
theorem State.resetLineM1_spec (s : State) (hw : s.width = 0) (hl : 128 ≤ s.build.maxWidth) :
    ∃ m, s.resetLineM1 = { s with rowbuf := m, clearedWidth := 132 } ∧
      (∀ x, (inRun s.build 63 4 128 x → m.read? x = some (s.fillColor.byte (x % 4))) ∧
        (¬ inRun s.build 63 4 128 x → m.read? x = s.rowbuf.read? x)) ∧
      (s.rowbuf.wf = true → m.wf = true) ∧
      (s.rowbuf.below (4 * (6 * s.build.rowStride)) = true → m.below (4 * (6 * s.build.rowStride)) = true) := by
  obtain ⟨m, h1, h2, h3, h4⟩ := s.paintRows_spec 63 4 128 s.fillColor
  have e : min 132 s.build.rowCap = 132 := by rw [Build.rowCap]; omega
  have h5 : 4 + 128 ≤ s.build.rowStride := by rw [Build.rowStride]; omega
  have e2 : s.resetLineM1 = { s.paintRows 63 4 128 s.fillColor with clearedWidth := 132 } := by
    simp only [State.resetLineM1, hw, State.fillRowRange]; simp [e]
  exact ⟨m, by rw [e2, h1], h2, h3, h4 (.inl h5)⟩

/-! The byte rules by mode and state -/

/-- What a commit can do (R104 to R107). -/
theorem State.commit_cases {s t : State} (h : s.commit = .next t) :
    (s.parser = .data ∧ t = s.commitPlain.commitCommon) ∨
    (s.parser = .attr ∧ 4 ≤ s.pLength ∧ t = s.commitRaster.commitCommon) ∨
    (s.parser = .attr ∧ s.pLength < 4 ∧ t = s.commitMalformed.commitCommon) := by
  unfold State.commit at h
  split at h
  · cases h; exact .inl ⟨‹_›, rfl⟩
  · split at h
    · cases h; exact .inr (.inl ⟨‹_›, ‹_›, rfl⟩)
    · cases h; exact .inr (.inr ⟨‹_›, by omega, rfl⟩)
  · cases h
  · cases h

/-- The five committing classes commit in mode Undecided (R104). -/
theorem exec_of_commits (i : Instr) (s : State) (hc : commits i = true) (hm : s.mode = .undecided) :
    exec i s = s.commit := by
  cases i <;> simp [commits] at hc <;> simp [exec, execBang, execHash, execDollar, execDash, execSixel, hm]

/-- What a byte that ends a color introducer can do (R84). -/
theorem State.resolveThen_cases {s t : State} {k : State → Result} (h : s.resolveThen k = .next t) :
    (s.parser = .color ∧ s.paletteOk = true ∧ k s.resolveColor = .next t) ∨
    (s.parser ≠ .color ∧ k s = .next t) := by
  unfold State.resolveThen at h
  split at h
  · split at h
    · exact .inl ⟨‹_›, ‹_›, h⟩
    · cases h
  · exact .inr ⟨‹_›, h⟩

theorem exec_bang_hash (s : State) (hm : s.mode ≠ .undecided) (hp : s.parser ≠ .color) :
    exec .bang s = .next (s.openList .compression) ∧ exec .hash s = .next (s.openList .color) := by
  simp only [exec, execBang, execHash, State.resolveThen]
  rw [if_neg hp, if_neg hp]
  cases h : s.mode
  · exact absurd h hm
  · exact ⟨rfl, rfl⟩
  · exact ⟨rfl, rfl⟩

theorem exec_bang_hash_color (s : State) (hm : s.mode ≠ .undecided) (hp : s.parser = .color)
    (hk : s.paletteOk = true) :
    exec .bang s = .next (s.resolveColor.openList .compression) ∧
      exec .hash s = .next (s.resolveColor.openList .color) := by
  simp only [exec, execBang, execHash, State.resolveThen, hk]
  rw [if_pos hp, if_pos hp]
  cases h : s.mode
  · exact absurd h hm
  · exact ⟨rfl, rfl⟩
  · exact ⟨rfl, rfl⟩

theorem exec_sixel_m1_data (s : State) (c : BitVec 6) (hm : s.mode = .m1) (hp : s.parser = .data) :
    exec (.sixel c) s = .next (s.sixelDataM1 c) := by simp only [exec, execSixel, hm, hp]

theorem exec_sixel_m1_run (s : State) (c : BitVec 6) (hm : s.mode = .m1) (hp : s.parser = .compression) :
    exec (.sixel c) s = .next (s.sixelRunM1 c) := by simp only [exec, execSixel, hm, hp]

theorem exec_sixel_m2_data (s : State) (c : BitVec 6) (hm : s.mode = .m2) (hp : s.parser = .data) :
    exec (.sixel c) s = .next (s.sixelDataM2 c) := by simp only [exec, execSixel, hm, hp]

theorem exec_sixel_m2_run (s : State) (c : BitVec 6) (hm : s.mode = .m2) (hp : s.parser = .compression) :
    exec (.sixel c) s = .next (s.sixelRunM2 c) := by simp only [exec, execSixel, hm, hp]

end Sys2Proof.Machine
end

