-- ==== Sys2Proof/Laws/PerInstr.lean ====
section
/-! SUPPORT. A family of statements about the instructions as syntax, one lemma per constructor: bit 7 of the byte an
instruction is written as does not matter (R57), and a transaction keeps its opcode in the low four bits (R70). -/

namespace Sys2Proof.Laws

/-- The opcode of a transaction in the low four bits of its word, and for a byte of the stream the same instruction
with bit 7 set. -/
def EncodingShape.Statement (i : Instr) : Prop :=
  i.wellFormed = true →
    match encode i with
    | .byte b => decode (.byte (b ||| 0x80)) = .ok i
    | .command w => 1 ≤ w.toNat % 16 ∧ w.toNat % 16 ≤ 6

/-- The low four bits of a word whose last part is a 4-bit opcode. -/
theorem opcode_low {n : Nat} (x : BitVec n) (op : BitVec 4) : (x ++ op).toNat % 16 = op.toNat := by
  rw [BitVec.toNat_append, ← Nat.shiftLeft_add_eq_or_of_lt op.isLt, Nat.shiftLeft_eq]
  have := op.isLt
  omega

/-- The same after the word is widened to a word of the command port. -/
theorem opcode_low_wide {n : Nat} (x : BitVec n) (op : BitVec 4) :
    ((x ++ op).setWidth 132).toNat % 16 = op.toNat := by
  rw [BitVec.toNat_setWidth, Nat.mod_mod_of_dvd _ (by decide : 16 ∣ 2 ^ 132), opcode_low]

/-- A widened word with a known opcode has it in range. -/
theorem opcode_wide_range {n : Nat} (x : BitVec n) (op : BitVec 4) (h : 1 ≤ op.toNat ∧ op.toNat ≤ 6) :
    1 ≤ ((x ++ op).setWidth 132).toNat % 16 ∧ ((x ++ op).setWidth 132).toNat % 16 ≤ 6 := by
  rw [opcode_low_wide]; exact h

theorem EncodingShape.digit (d : BitVec 4) : EncodingShape.Statement (.digit d) := by
  show (Instr.digit d).wellFormed = true → decode (.byte ((0x30 + d.setWidth 8) ||| 0x80)) = .ok (.digit d)
  revert d; decide

theorem EncodingShape.semi : EncodingShape.Statement .semi := fun _ =>
  (by decide : decode (.byte (0x3B ||| 0x80)) = .ok .semi)
theorem EncodingShape.bang : EncodingShape.Statement .bang := fun _ =>
  (by decide : decode (.byte (0x21 ||| 0x80)) = .ok .bang)
theorem EncodingShape.hash : EncodingShape.Statement .hash := fun _ =>
  (by decide : decode (.byte (0x23 ||| 0x80)) = .ok .hash)
theorem EncodingShape.quote : EncodingShape.Statement .quote := fun _ =>
  (by decide : decode (.byte (0x22 ||| 0x80)) = .ok .quote)
theorem EncodingShape.dollar : EncodingShape.Statement .dollar := fun _ =>
  (by decide : decode (.byte (0x24 ||| 0x80)) = .ok .dollar)
theorem EncodingShape.dash : EncodingShape.Statement .dash := fun _ =>
  (by decide : decode (.byte (0x2D ||| 0x80)) = .ok .dash)

theorem EncodingShape.sixel (code6 : BitVec 6) : EncodingShape.Statement (.sixel code6) := by
  show (Instr.sixel code6).wellFormed = true →
    decode (.byte ((0x3F + code6.setWidth 8) ||| 0x80)) = .ok (.sixel code6)
  revert code6; decide +kernel

theorem EncodingShape.ignored : EncodingShape.Statement .ignored := fun _ =>
  (by decide : decode (.byte (0x00 ||| 0x80)) = .ok .ignored)

theorem EncodingShape.init (c f p t : Word) : EncodingShape.Statement (.init c f p t) := fun _ => by
  show 1 ≤ (t ++ p ++ f ++ c ++ 1#4).toNat % 16 ∧ (t ++ p ++ f ++ c ++ 1#4).toNat % 16 ≤ 6
  rw [opcode_low]; decide

theorem EncodingShape.decode (a e : Word) : EncodingShape.Statement (.decode a e) := fun _ =>
  opcode_wide_range (e ++ a) 2#4 (by decide)

theorem EncodingShape.currentWidth : EncodingShape.Statement .currentWidth := fun _ =>
  (by decide : 1 ≤ (3 : TxnWord).toNat % 16 ∧ (3 : TxnWord).toNat % 16 ≤ 6)

theorem EncodingShape.answer (v : Word) : EncodingShape.Statement (.answer v) := fun _ => opcode_wide_range v 4#4 (by decide)

theorem EncodingShape.hostRead (sp : Space) (i : Word) : EncodingShape.Statement (.hostRead sp i) := fun _ =>
  opcode_wide_range (i ++ encodeSpace sp) 5#4 (by decide)

theorem EncodingShape.hostWrite (sp : Space) (i v : Word) : EncodingShape.Statement (.hostWrite sp i v) := fun _ => by
  cases sp
  · exact opcode_wide_range (v.extractLsb' 0 8 ++ i ++ encodeSpace .inbuf) 6#4 (by decide)
  · exact opcode_wide_range (v ++ i ++ encodeSpace .palette) 6#4 (by decide)
  · exact opcode_wide_range (v ++ i ++ encodeSpace .rowbuf) 6#4 (by decide)

end Sys2Proof.Laws
end

