-- ==== Sys2Proof/Tests/Slice0.lean ====
section
/-! SUPPORT. Tests by hand: well-formedness, one written-out word per constructor, the converters, at most two single
steps per instruction (expected values from 95_test_vectors.md or worked out from the rule named), and for every
statement with hypotheses a state and operands that meet them, each clause at a boundary of its range. -/

namespace Sys2Proof.Tests

-- One theorem after the other: the tests are many and small, and a thread for each costs more than the tests.
set_option Elab.async false

open Sys2Proof Sys2Proof.Machine

/-! Helpers -/

/-- A small build: MAX_WIDTH 128, PALETTE_SIZE 2, PARAM_SIZE 8, CHUNK_SIZE 16. -/
def small : Build := ⟨128, 2, 8, 16⟩

/-- After an INIT on the small build with fill `0xFF000000`, color `0xFFFFFFFF`, two palette registers. -/
def ready : State :=
  { State.reset with
    build := small, inited := true, fillColor := 0xFF000000, color := 0xFFFFFFFF, paletteLength := 2 }

/-- `ready` with one byte of INBUF to process. -/
def running (b : Byte) : State := { ready with phase := .run, inbuf := [(0, b)], endPos := 1 }

/-- Mode M1, state and parameters as given, frontier at 132 with nothing cleared yet. -/
def inM1 (p : ParserState) (params : List Word) (cursor : Nat) : State :=
  { running 0x7E with
    mode := .m1, level := .l1, parser := p, params := params, cursor := cursor, clearedWidth := 132 }

/-- Mode M2 with a band of 3, state and parameters as given. -/
def inM2 (p : ParserState) (params : List Word) (cursor : Nat) : State :=
  { running 0x7E with
    mode := .m2, level := .l2, parser := p, params := params, cursor := cursor, width := 7 }

/-- A color introducer with its parameters, in mode M1. -/
def color (params : List Word) (n : Nat) : State := { inM1 .color params 4 with pLength := n }

/-- The next state of a result; the reset state stands for a stop. -/
def nextOf : Result → State
  | .next s => s
  | .fault _ => State.reset
  | .refused _ => State.reset

/-- Whether a result is a next state. -/
def runs : Result → Bool
  | .next _ => true
  | .fault _ => false
  | .refused _ => false

theorem next_of_runs {x : Result} (h : runs x = true) : x = .next (nextOf x) := by
  cases x with
  | next s => rfl
  | fault f => cases h
  | refused f => cases h

/-- The pixel in slot `i` of row `r`. -/
def pixel (s : State) (r i : Nat) : Word := s.wordAt .rowbuf (pixelIndex s.build r i)

/-! Well-formedness: ill-formed terms are refused (R61, R44) -/

theorem test_digit_ten_is_refused : (Instr.digit 10).wellFormed = false ∧ (Instr.digit 15).wellFormed = false := by
  decide
theorem test_inbuf_value_256_is_refused :
    (Instr.hostWrite .inbuf 0 256).wellFormed = false ∧ (Instr.hostWrite .inbuf 0 0x80000000).wellFormed = false := by
  decide

/-! Decoding: one word per constructor, written out from R59, R60, R61 and R70 with the layout of log 7 -/

theorem test_decode_digit : decode (.byte 0b00110000) = .ok (.digit 0) ∧ decode (.byte 0b10111001) = .ok (.digit 9) := by
  decide
theorem test_decode_semi : decode (.byte 0b00111011) = .ok .semi := by decide
theorem test_decode_bang : decode (.byte 0b10100001) = .ok .bang := by decide
theorem test_decode_hash : decode (.byte 0b00100011) = .ok .hash := by decide
theorem test_decode_quote : decode (.byte 0b00100010) = .ok .quote := by decide
theorem test_decode_dollar : decode (.byte 0b00100100) = .ok .dollar := by decide
theorem test_decode_dash : decode (.byte 0b10101101) = .ok .dash := by decide
theorem test_decode_sixel :
    decode (.byte 0b00111111) = .ok (.sixel 0) ∧ decode (.byte 0b11111110) = .ok (.sixel 63) := by decide
theorem test_decode_ignored : ∀ b ∈ ([0x00, 0x20, 0x25, 0x2C, 0x2E, 0x2F, 0x3A, 0x3C, 0x3E, 0x7F, 0xFF] : List Byte),
    decode (.byte b) = .ok .ignored := by decide
/-- INIT(0x11223344, 0x55667788, 0x99AABBCC, 0xDDEEFF00). -/
theorem test_decode_init : decode (.command 0xDDEEFF0099AABBCC55667788112233441) =
    .ok (.init 0x11223344 0x55667788 0x99AABBCC 0xDDEEFF00) := by decide +kernel
theorem test_decode_decode : decode (.command 0x00000004FFFFFFFF2) = .ok (.decode 0xFFFFFFFF 4) := by decide +kernel
theorem test_decode_current_width : decode (.command 0x3) = .ok .currentWidth := by decide +kernel
theorem test_decode_answer : decode (.command 0x800000014) = .ok (.answer 0x80000001) := by decide +kernel
/-- HOST_READ of ROWBUF (code 2) 24599: index 0x6017 in bits 37..6, space in bits 5..4, opcode 5. -/
theorem test_decode_host_read : decode (.command (0x6017 * 64 + 2 * 16 + 5)) = .ok (.hostRead .rowbuf 24599) := by
  decide +kernel
/-- HOST_WRITE of PALETTE (code 1) 1: value 0xFFFF0000 in bits 69..38; and of INBUF, where the value is a byte. -/
theorem test_decode_host_write :
    decode (.command (0xFFFF0000 * 2 ^ 38 + 1 * 64 + 1 * 16 + 6)) = .ok (.hostWrite .palette 1 0xFFFF0000) ∧
    decode (.command (0x1FF * 2 ^ 38 + 3 * 64 + 0 * 16 + 6)) = .ok (.hostWrite .inbuf 3 0xFF) := by decide +kernel
/-- The opcode table's own words: a byte row and a transaction row (log 8). -/
theorem test_table_words : decodeTableWord 8 0x30 = some (.digit 0) ∧ decodeTableWord 8 0x3 = some .currentWidth ∧
    decodeTableWord 8 0x7E = some (.sixel 63) := by decide +kernel

/-! Converters: 95_test_vectors.md sections 2.1 to 2.3 -/

theorem test_rgb : normalizeRgb 33 66 99 = 0xFFFCA854 ∧ normalizeRgb 99 1 50 = 0xFF8003FC ∧
    normalizeRgb 1 2 3 = 0xFF080503 ∧ normalizeRgb 0 100 0 = 0xFF00FF00 := by decide
theorem test_hls (f : HlsFormat) :
    normalizeHls f 60 50 100 = 0xFFFF00FF ∧ normalizeHls f 180 50 100 = 0xFF00FFFF ∧
    normalizeHls f 300 50 100 = 0xFFFFFF00 ∧ normalizeHls f 120 25 100 = 0xFF000080 ∧
    normalizeHls f 120 75 100 = 0xFF8080FF ∧ normalizeHls f 120 50 50 = 0xFF4040BF ∧
    normalizeHls f 90 40 60 = 0xFF6629A3 ∧ normalizeHls f 0 100 50 = 0xFFFFFFFF ∧
    normalizeHls f 0 0 50 = 0xFF000000 ∧ normalizeHls f 360 50 100 = 0xFFFF0000 := by
  cases f <;> decide +kernel
theorem test_hls_formats : normalizeHls .binary32 30 50 100 = 0xFFFF0080 ∧
    normalizeHls .binary64 30 50 100 = 0xFFFF007F ∧ normalizeHls .binary32 0 50 40 = 0xFFB34C4C ∧
    normalizeHls .binary64 0 50 40 = 0xFFB34D4D ∧ normalizeHls .exact 0 50 40 = 0xFFB34D4D := by decide +kernel

/-! Single steps -/

/-- PA2: the tenth digit of 4294967297 wraps modulo 2^32. -/
theorem test_digit_wraps :
    (nextOf (exec (.digit 7) (inM1 .compression [429496729, 0, 0, 0, 0, 0, 0, 0] 4))).param 0 = 1 := by decide +kernel
/-- PA4: with eight parameters a further `;` is ignored, and the next digit extends the eighth. -/
theorem test_semi_stops_at_eight :
    let s := { inM1 .color [1, 0, 0, 0, 0, 0, 0, 0] 4 with pLength := 8 }
    (nextOf (exec .semi s)).pLength = 8 ∧ (nextOf (exec (.digit 2) (nextOf (exec .semi s)))).param 7 = 2 := by
  decide +kernel
/-- M1-3: a second `!` starts a new count. -/
theorem test_bang_last_wins :
    (nextOf (exec .bang (inM1 .compression [3, 0, 0, 0, 0, 0, 0, 0] 4))).params = [0, 0, 0, 0, 0, 0, 0, 0] := by
  decide +kernel
/-- PL5: `#1;2;100;0;0#` assigns register 1. -/
theorem test_hash_assigns :
    let t := nextOf (exec .hash (color [1, 2, 100, 0, 0, 0, 0, 0] 5))
    t.color = 0xFF0000FF ∧ t.wordAt .palette 1 = 0xFF0000FF ∧ t.parser = .color := by decide +kernel
/-- PL9: HLS hue 360 is accepted; PL8: 361 is not. -/
theorem test_hash_hls_bound :
    (nextOf (exec .hash (color [1, 1, 360, 50, 100, 0, 0, 0] 5))).color = 0xFFFF0000 ∧
    (nextOf (exec .hash (color [1, 1, 361, 50, 100, 0, 0, 0] 5))).color = 0xFFFFFFFF := by decide +kernel
/-- RP5: `"` discards the digits before it. -/
theorem test_quote_discards :
    let t := nextOf (exec .quote { ready with params := [5, 0, 0, 0, 0, 0, 0, 0] })
    t.param 0 = 0 ∧ t.parser = .attr ∧ t.pos = 1 := by decide +kernel
/-- M1-4: `$` keeps the width seen so far. -/
theorem test_dollar_keeps_real_width :
    let t := nextOf (exec .dollar (inM1 .data [0, 0, 0, 0, 0, 0, 0, 0] 7))
    t.realWidth = 7 ∧ t.cursor = 4 := by decide +kernel
/-- R70: the kinds of the two callbacks. -/
theorem test_callback_kinds : CallbackKind.band.code = 1 ∧ CallbackKind.mode.code = 2 := by decide
/-- BC6: the BAND callback of `~~~-` carries 3. -/
theorem test_dash_width :
    let t := nextOf (exec .dash (inM1 .data [0, 0, 0, 0, 0, 0, 0, 0] 7))
    t.out = [.callback .band 3] ∧ t.phase = .waitBand ∧ t.pos = 0 := by decide +kernel
/-- B5: `"1;1;10;6~` with `truncate` commits L2 and M2 with width 14 and clears slots 4..13. -/
theorem test_dash_commits_m2 :
    let t := nextOf (exec .dash { running 0x2D with
      parser := .attr, pLength := 4, params := [1, 1, 10, 6, 0, 0, 0, 0], truncate := true })
    t.width = 14 ∧ t.height = 6 ∧ t.out = [.callback .mode 2] ∧ t.pos = 0 ∧ pixel t 5 13 = 0xFF000000 := by decide +kernel
/-- K3: `code6 = 0x15` paints rows 0, 2 and 4. -/
theorem test_sixel_rows :
    let t := nextOf (exec (.sixel 0x15) { inM1 .data [0, 0, 0, 0, 0, 0, 0, 0] 10 with clearedWidth := 4 })
    pixel t 0 10 = 0xFFFFFFFF ∧ pixel t 1 10 = 0xFF000000 ∧ pixel t 4 10 = 0xFFFFFFFF ∧
      pixel t 5 10 = 0xFF000000 ∧ t.cursor = 11 ∧ t.clearedWidth = 132 := by decide +kernel
/-- M1-9: a run past MAX_WIDTH stops at slot MAX_WIDTH - 1 and the cursor saturates. -/
theorem test_sixel_run_clips :
    let t := nextOf (exec (.sixel 1) { inM1 .compression [130, 0, 0, 0, 0, 0, 0, 0] 4 with clearedWidth := 4 })
    pixel t 0 127 = 0xFFFFFFFF ∧ pixel t 0 128 = 0xFF000000 ∧ t.cursor = 128 ∧ t.parser = .data := by
  decide +kernel
/-- PA5: an ignored byte only advances. -/
theorem test_ignored : nextOf (exec .ignored (running 0x0A)) = { running 0x0A with pos := 1 } := by decide +kernel
/-- H18: `palette_length` is cut to PALETTE_SIZE, any non-zero `truncate` is 1. -/
theorem test_init_clamps :
    let t := nextOf (exec (.init 0xFFFFFFFF 0xFF000000 1000 2) State.reset)
    t.paletteLength = 256 ∧ t.truncate = true ∧ t.inited = true ∧ t.cursor = 4 := by decide +kernel
/-- `palette_length = 0` is read as 1 (PL4). -/
theorem test_init_zero_palette : (nextOf (exec (.init 0 0 0 0) State.reset)).paletteLength = 1 := by decide +kernel
/-- H6: an empty range writes the sentinel and runs. -/
theorem test_decode_empty_range :
    let t := nextOf (exec (.decode 5 5) ready)
    t.byteAt .inbuf 5 = 0xFF ∧ t.pos = 5 ∧ t.endPos = 5 ∧ t.phase = .run := by decide +kernel
/-- H3: the fault of DECODE(-1, 5) before INIT is F_NOT_INITED. -/
theorem test_decode_order_of_checks :
    (nextOf (exec (.decode 0xFFFFFFFF 5) State.reset)).fault = [⟨.notInited, .known (.decode 0xFFFFFFFF 5)⟩] := by
  decide +kernel
/-- M1-8: `~~~$~` then CURRENT_WIDTH returns 3. -/
theorem test_current_width :
    let t := nextOf (exec .currentWidth
      { inM1 .data [0, 0, 0, 0, 0, 0, 0, 0] 5 with phase := .idle, realWidth := 7 })
    t.out = [.width 3] ∧ t.realWidth = 7 := by decide +kernel
/-- M1-12: a BAND answer of 1 aborts, resets the cursor and completes. -/
theorem test_answer_aborts :
    let t := nextOf (exec (.answer 1) { inM1 .data [0, 0, 0, 0, 0, 0, 0, 0] 4 with phase := .waitBand, realWidth := 5 })
    t.abort = true ∧ t.phase = .idle ∧ t.realWidth = 4 ∧ t.out = [.done] := by decide +kernel
/-- P4 step 13: answering 0 clears the rows for the next band and goes on after the `-`. -/
theorem test_answer_clears :
    let t := nextOf (exec (.answer 0) { inM1 .data [0, 0, 0, 0, 0, 0, 0, 0] 4 with phase := .waitBand, realWidth := 5 })
    pixel t 3 131 = 0xFF000000 ∧ t.pos = 1 ∧ t.phase = .run := by decide +kernel
/-- R46: the least significant byte lies at the lowest offset, and the word reads back. -/
theorem test_host_write_order :
    let t := nextOf (exec (.hostWrite .palette 1 0x11223344) ready)
    t.byteAt .palette 4 = 0x44 ∧ t.byteAt .palette 7 = 0x11 ∧
      (nextOf (exec (.hostRead .palette 1) t)).out = [.readWord 0x11223344] := by decide +kernel
/-- H16 on the small build: index 2 of two palette registers is F_BAD_INDEX. -/
theorem test_host_read_bad_index :
    (nextOf (exec (.hostRead .palette 2) ready)).fault = [⟨.badIndex, .known (.hostRead .palette 2)⟩] := by
  decide +kernel
/-- A byte placed at the fetch is the next instruction, and so is a transaction. -/
theorem test_fetch_words :
    nextOf (step (State.reset.withFetchWord 8 0x3B)) = nextOf (exec .semi (State.reset.withFetchWord 8 0x3B)) ∧
    (nextOf (step (State.reset.withFetchWord 8 0x3))).fault = [⟨.notInited, .known .currentWidth⟩] := by
  decide +kernel
/-- BC3 on a build of MAX_WIDTH 512: `clear_upto(304)` from 132 reaches 388. -/
theorem test_clear_upto :
    clearedAfter ⟨512, 2, 8, 16⟩ 132 304 = 388 ∧ clearedAfter ⟨512, 2, 8, 16⟩ 132 100 = 132 ∧
      ({ ready with build := ⟨512, 2, 8, 16⟩, clearedWidth := 132 }.clearUpto 304).clearedWidth = 388 := by
  decide +kernel
/-- R92's example: `put_wide(0x3F003F00, c, 8)` paints slots 9 and 11. -/
theorem test_put_wide :
    let t := (ready.paintRow 0 8 4 0).putWide 0x3F003F00 0xAB 8
    pixel t 0 9 = 0xAB ∧ pixel t 0 11 = 0xAB ∧ pixel t 0 8 = 0 ∧ pixel t 0 10 = 0 := by decide +kernel

/-! Witnesses: a state and operands that meet the hypotheses of each statement, clause by clause. The name says the
statement. -/

/-- Eight parameters of 0. -/
def zeros : List Word := [0, 0, 0, 0, 0, 0, 0, 0]

theorem test_witness_DecodeOfEncodeIsTheInstruction :
    (Instr.digit 9).wellFormed = true ∧ (Instr.hostWrite .inbuf 0xFFFFFFFF 255).wellFormed = true ∧
    (Instr.hostWrite .rowbuf 0xFFFFFFFF 0xFFFFFFFF).wellFormed = true := by decide

theorem test_witness_UnknownCommandWordsAreRejected :
    ((0x10 : TxnWord).extractLsb' 0 4).toNat = 0 ∧ 6 < ((0x7 : TxnWord).extractLsb' 0 4).toNat ∧
    6 < ((0xF : TxnWord).extractLsb' 0 4).toNat ∧
    ((0x35 : TxnWord).extractLsb' 0 4 = 5 ∧ (0x35 : TxnWord).extractLsb' 4 2 = 3) ∧
    ((0x36 : TxnWord).extractLsb' 0 4 = 6 ∧ (0x36 : TxnWord).extractLsb' 4 2 = 3) := by decide +kernel

/-- The last byte of INBUF that can be processed, with each kind of port. -/
theorem test_witness_StepRunsTheByteAtPos : ∀ q ∈ ([[], [⟨.synchronous, 3⟩], [⟨.afterBytes 1, 3⟩]] : List (List Request)),
    let s := { ready with phase := .run, inbuf := [(14, 0x7E)], pos := 14, endPos := 15, port := q }
    s.phase = .run ∧ s.pos ≠ s.endPos ∧ s.pos < s.build.chunkSize ∧
      decode (.byte (s.byteAt .inbuf s.pos)) = .ok (.sixel 63) := by decide +kernel

theorem test_witness_StepTakesTheNextTransaction :
    let s := { ready with port := [⟨.synchronous, 3⟩] }
    let u := { running 0x7E with port := [⟨.afterBytes 0, 7⟩] }
    (s.port = ⟨.synchronous, 3⟩ :: [] ∧ s.phase ≠ .run ∧ decode (.command 3) = .ok .currentWidth) ∧
    (u.port = ⟨.afterBytes 0, 7⟩ :: [] ∧ u.phase = .run ∧ decode (.command 7) = .error (.unknownOpcode 7)) := by
  decide +kernel

theorem test_witness_StepCompletesOrWaits :
    (∀ q ∈ ([[], [⟨.synchronous, 3⟩], [⟨.afterBytes 1, 3⟩]] : List (List Request)),
      let s := { running 0x7E with pos := 1, port := q }; s.phase = .run ∧ s.pos = s.endPos) ∧
    (ready.port = [] ∧ ready.phase ≠ .run) := by decide

theorem test_witness_SemiOpensAParameter :
    (let s := { ready with pLength := 7 }; s.pLength < s.build.paramSize) ∧
    (let s := { ready with pLength := 8 }; s.build.paramSize ≤ s.pLength) := by decide

theorem test_witness_QuoteOpensTheRasterAttributes :
    (ready.mode = .undecided ∧ ready.parser = .data) ∧ (inM2 .color zeros 4).mode ≠ .undecided ∧
    { ready with parser := .attr }.parser ≠ .data := by decide

theorem test_witness_CommitWithoutRasterAttributes :
    commits .dash = true ∧ commits (.sixel 0) = true ∧ ready.build.legal ∧ ready.mode = .undecided ∧
    ready.parser = .data := by decide

theorem test_witness_CommitWithRasterAttributes : ∀ tr : Bool,
    let s := { ready with parser := .attr, pLength := 4, truncate := tr }
    commits .hash = true ∧ s.build.legal ∧ s.mode = .undecided ∧ s.parser = .attr ∧ 4 ≤ s.pLength ∧
      s.truncate = tr := by decide

theorem test_witness_CommitWithMalformedRasterAttributes : ∀ n ∈ ([1, 3] : List Nat),
    let s := { ready with parser := .attr, pLength := n }
    commits .bang = true ∧ s.build.legal ∧ s.mode = .undecided ∧ s.parser = .attr ∧ s.pLength < 4 := by decide

theorem test_witness_SixelInM1Data : ∀ k ∈ ([127, 128] : List Nat),
    (inM1 .data zeros k).mode = .m1 ∧ (inM1 .data zeros k).parser = .data := by decide

theorem test_witness_SixelInM1Compression :
    let s := inM1 .compression zeros 4
    let u := inM1 .compression [0xFFFFFFFF, 0, 0, 0, 0, 0, 0, 0] 128
    (s.mode = .m1 ∧ s.parser = .compression ∧ 1 = (if s.param 0 = 0 then 1 else (s.param 0).toNat)) ∧
    (u.mode = .m1 ∧ u.parser = .compression ∧ 0xFFFFFFFF = (if u.param 0 = 0 then 1 else (u.param 0).toNat)) := by
  decide +kernel

theorem test_witness_SixelInM2Data : ∀ k ∈ ([127, 128] : List Nat),
    (inM2 .data zeros k).mode = .m2 ∧ (inM2 .data zeros k).parser = .data := by decide

theorem test_witness_SixelInM2Compression :
    let s := inM2 .compression zeros 4
    let u := inM2 .compression [0xFFFFFFFF, 0, 0, 0, 0, 0, 0, 0] 128
    (s.mode = .m2 ∧ s.parser = .compression ∧ 1 = (if s.param 0 = 0 then 1 else (s.param 0).toNat)) ∧
    (u.mode = .m2 ∧ u.parser = .compression ∧ 0xFFFFFFFF = (if u.param 0 = 0 then 1 else (u.param 0).toNat)) := by
  decide +kernel

theorem test_witness_SixelResolvesAnOpenColor : ∀ n ∈ ([1, 2] : List Nat),
    let s := { color zeros 1 with paletteLength := n }
    s.mode ≠ .undecided ∧ s.parser = .color ∧ 1 ≤ s.paletteLength ∧ s.paletteLength ≤ s.build.paletteSize := by decide

theorem test_witness_BangAndHashOpenAList : ∀ p ∈ ([.data, .compression] : List ParserState),
    (inM1 p zeros 4).mode ≠ .undecided ∧ (inM1 p zeros 4).parser ≠ .color := by decide

theorem test_witness_ColorSelect :
    let s := color [0xFFFFFFFF, 0, 0, 0, 0, 0, 0, 0] 1
    s.mode ≠ .undecided ∧ s.parser = .color ∧ 1 ≤ s.paletteLength ∧ s.paletteLength ≤ s.build.paletteSize ∧
      s.pLength = 1 := by decide

/-- HLS at hue 360 and RGB at 100, each with every other channel at 100. -/
theorem test_witness_ColorAssign :
    let s := color [5, 1, 360, 100, 100, 0, 0, 0] 5
    let u := color [5, 2, 100, 100, 100, 0, 0, 0] 5
    (s.mode ≠ .undecided ∧ s.parser = .color ∧ 1 ≤ s.paletteLength ∧ s.paletteLength ≤ s.build.paletteSize ∧
      s.pLength = 5 ∧ s.param 1 = 1 ∧ (s.param 2).toNat ≤ 360 ∧ (s.param 3).toNat ≤ 100 ∧ (s.param 4).toNat ≤ 100 ∧
      1 = (s.param 0).toNat % s.paletteLength) ∧
    (u.mode ≠ .undecided ∧ u.parser = .color ∧ 1 ≤ u.paletteLength ∧ u.paletteLength ≤ u.build.paletteSize ∧
      u.pLength = 5 ∧ u.param 1 = 2 ∧ (u.param 2).toNat ≤ 100 ∧ (u.param 3).toNat ≤ 100 ∧ (u.param 4).toNat ≤ 100 ∧
      1 = (u.param 0).toNat % u.paletteLength) := by decide +kernel

/-- Each reason of rejection at its boundary. -/
theorem test_witness_ColorIntroducerRejected :
    (color zeros 2).pLength ≠ 1 ∧ (color zeros 2).pLength ≠ 5 ∧
    (let s := color [0, 3, 0, 0, 0, 0, 0, 0] 5; s.pLength ≠ 1 ∧ s.param 1 ≠ 1 ∧ s.param 1 ≠ 2) ∧
    (let s := color [0, 1, 361, 0, 0, 0, 0, 0] 5; s.param 1 = 1 ∧ 360 < (s.param 2).toNat) ∧
    (let s := color [0, 2, 101, 0, 0, 0, 0, 0] 5; s.param 1 = 2 ∧ 100 < (s.param 2).toNat) ∧
    (let s := color [0, 2, 0, 101, 0, 0, 0, 0] 5; 100 < (s.param 3).toNat) ∧
    (let s := color [0, 2, 0, 0, 101, 0, 0, 0] 5; 100 < (s.param 4).toNat) ∧
    (color zeros 8).mode ≠ .undecided ∧ (color zeros 8).parser = .color ∧ 1 ≤ (color zeros 8).paletteLength ∧
    (color zeros 8).paletteLength ≤ (color zeros 8).build.paletteSize := by decide +kernel

theorem test_witness_DollarReturnsTheCursor :
    (inM1 .data zeros 4).mode = .m1 ∧ (inM2 .data zeros 4).mode = .m2 := by decide

theorem test_witness_DashRaisesTheBandCallback :
    (let s := inM1 .data zeros 128; s.mode = .m1 ∧ 128 = min (max s.realWidth s.cursor) s.build.maxWidth) ∧
    (let s := inM2 .data zeros 4; s.mode = .m2 ∧ 4 = min (max s.realWidth s.cursor) s.build.maxWidth) := by decide

theorem test_witness_AnswerToABandInM1 :
    let s := { inM1 .data zeros 4 with phase := .waitBand }
    s.build.legal ∧ s.phase = .waitBand ∧ s.mode = .m1 ∧ s.width = 0 ∧ (1 : Word) ≠ 0 := by decide

theorem test_witness_AnswerToABandInM2 : ∀ n ∈ ([4, 132] : List Nat),
    let s := { inM2 .data zeros 4 with phase := .waitBand, width := n }
    s.phase = .waitBand ∧ s.mode = .m2 ∧ 4 ≤ s.width ∧ s.width ≤ s.build.rowCap ∧ (0xFFFFFFFF : Word) ≠ 0 := by decide

theorem test_witness_AnswerToTheModeCallback :
    { inM2 .data zeros 4 with phase := .waitMode }.phase = .waitMode ∧ (1 : Word) ≠ 0 := by decide

theorem test_witness_InitSetsTheRegisters : ready.phase = .idle ∧ (running 0x7E).phase ≠ .idle := by decide

/-- Every check of DECODE failing first, and the largest legal range with `abort` set and clear. -/
theorem test_witness_DecodeFollowsItsRule :
    State.reset.inited = false ∧ ((running 0x7E).inited = true ∧ (running 0x7E).phase ≠ .idle) ∧
    (ready.inited = true ∧ ready.phase = .idle ∧
      (¬ (0 ≤ (0xFFFFFFFF : Word).toInt ∧ (0xFFFFFFFF : Word).toInt ≤ (5 : Word).toInt ∧
        (5 : Word).toInt ≤ (ready.build.chunkSize : Int) - 1)) ∧
      ¬ (0 ≤ (0 : Word).toInt ∧ (0 : Word).toInt ≤ (16 : Word).toInt ∧
        (16 : Word).toInt ≤ (ready.build.chunkSize : Int) - 1)) ∧
    (0 ≤ (15 : Word).toInt ∧ (15 : Word).toInt ≤ (15 : Word).toInt ∧
      (15 : Word).toInt ≤ (ready.build.chunkSize : Int) - 1 ∧ { ready with abort := true }.abort = true ∧
      ready.abort = false) := by decide +kernel

theorem test_witness_CurrentWidthReportsTheBand :
    State.reset.inited = false ∧ (ready.inited = true ∧ (running 0x7E).phase = .run) ∧ ready.phase ≠ .run ∧
    { inM1 .data zeros 128 with phase := .idle }.mode = .m1 ∧
    { inM2 .data zeros 4 with phase := .waitBand }.mode = .m2 ∧ ready.mode = .undecided ∧
    4 = min (max ready.realWidth ready.cursor) ready.build.maxWidth := by decide

/-- The last element of each space, and the last guard slot and the first slot after it in row 5. -/
theorem test_witness_HostReadReturnsTheElement :
    ready.phase ≠ .run ∧ (15 : Word).toNat < ready.build.count .inbuf ∧ (1 : Word).toNat < ready.build.count .palette ∧
    ((791 : Word).toNat < ready.build.count .rowbuf ∧ 4 ≤ (791 : Word).toNat % ready.build.rowStride) ∧
    ((664 : Word).toNat < ready.build.count .rowbuf ∧ 4 ≤ (664 : Word).toNat % ready.build.rowStride) ∧
    ((663 : Word).toNat < ready.build.count .rowbuf ∧ (663 : Word).toNat % ready.build.rowStride < 4) := by decide +kernel

theorem test_witness_HostWriteWritesTheElement :
    ready.phase = .idle ∧ (15 : Word).toNat < ready.build.count .inbuf ∧
    (1 : Word).toNat < ready.build.count .palette ∧ (791 : Word).toNat < ready.build.count .rowbuf := by decide +kernel

theorem test_witness_RefusedTransactionsOnlyRecordTheirFault :
    ready.phase = .idle ∧ (running 0x7E).phase = .run ∧ { ready with phase := .waitBand }.phase ≠ .idle ∧
    ready.phase ≠ .run ∧ ready.build.count .palette ≤ (2 : Word).toNat ∧
    ready.build.count .rowbuf ≤ (792 : Word).toNat ∧ ready.build.count .inbuf ≤ (16 : Word).toNat := by decide +kernel

/-- A record that is there, and a step that adds one. -/
theorem test_witness_FaultsAreNeverCleared :
    let f : FaultRecord := ⟨.noCallback, .known (.answer 0)⟩
    let s := { ready with fault := [f], port := [⟨.synchronous, 7⟩] }
    f ∈ s.fault ∧ step s = .next (nextOf (step s)) ∧ (nextOf (step s)).fault = [f, ⟨.badCommand, .unknown 7⟩] :=
  ⟨by decide, next_of_runs (by decide +kernel), by decide +kernel⟩

theorem test_witness_RgbScalesPercentages : (100 : Nat) ≤ 100 ∧ chan 100 = 255 ∧ chan 0 = 0 := by decide

theorem test_witness_PutSinglePaintsOneSlot :
    (5 : Nat) < 6 ∧ 131 < ready.build.rowStride ∧ (3 : Nat) < 4 ∧
    ((63 : BitVec 6).getLsbD 5 = true ∧ 127 < ready.build.maxWidth) ∧
    ¬ ((63 : BitVec 6).getLsbD 5 = true ∧ 128 < ready.build.maxWidth) := by decide

theorem test_witness_PutRunPaintsItsSlots :
    (2 = if 126 < ready.build.maxWidth then min 3 (ready.build.maxWidth - 126) else 0) ∧
    (0 = if 128 < ready.build.maxWidth then min 3 (ready.build.maxWidth - 128) else 0) ∧
    ((1 : BitVec 6).getLsbD 0 = true ∧ (126 : Nat) ≤ 127 ∧ (127 : Nat) < 126 + 2) ∧
    ¬ ((1 : BitVec 6).getLsbD 0 = true ∧ (126 : Nat) ≤ 128 ∧ (128 : Nat) < 126 + 2) := by decide

theorem test_witness_FillRowRangeFillsItsSlots :
    (4 : Nat) ≤ 4 ∧ 4 ≤ ready.build.rowCap ∧ ready.build.rowCap ≤ ready.build.rowCap ∧
    (4 ≤ 131 ∧ 131 < ready.build.rowCap) ∧ ¬ (4 ≤ 3 ∧ 3 < ready.build.rowCap) ∧ 131 < ready.build.rowStride := by decide

theorem test_witness_ClearUptoReachesItsLimit :
    128 ≤ ready.build.maxWidth ∧ ready.clearedWidth ≤ ready.build.rowCap ∧ clearedAfter small 4 128 = 132 ∧
    (ready.clearedWidth ≤ 131 ∧ 131 < clearedAfter small 4 128) ∧ ¬ (ready.clearedWidth ≤ 3) := by decide

theorem test_witness_PutWideIsFourPutSingles :
    124 % 4 = 0 ∧ 124 + 4 ≤ ready.build.maxWidth ∧ 131 < ready.build.rowStride := by decide

theorem test_witness_PowerOnMeetsTheInvariant :
    let s := { State.reset with color := 7, cursor := 0, pLength := 0 }
    s.build.legal ∧ s.params.length = s.build.paramSize ∧ s.inited = false ∧ s.phase = .idle ∧ s.fault = [] ∧
      s.inbuf = [] ∧ s.palette = [] ∧ s.rowbuf = [] := by decide

/-- A state of the invariant in mode Undecided that runs a byte. -/
theorem running_inv (b : Byte) : (running b).Inv where
  build := (by decide : small.legal)
  params := rfl
  arrays := ⟨rfl, rfl, rfl, rfl, rfl, rfl⟩
  faults := .nil
  notReady := fun h => by cases h
  regs := fun _ =>
    { pLength := by simp [running, ready, State.reset, small]
      cursor := by simp [running, ready, State.reset, small]
      realWidth := by simp [running, ready, State.reset, small]
      clearedWidth := by simp [running, ready, State.reset, small, Build.rowCap]
      clearedStep := by simp [running, ready, State.reset]
      widthM2 := fun h => by cases h
      widthElse := fun _ => rfl
      paletteLength := by simp [running, ready, small]
      preamble := fun _ => .inl rfl
      committed := fun h => absurd rfl h
      levels := ⟨fun _ => rfl, fun _ => rfl⟩
      levelM2 := fun h => by cases h
      startCursor := fun _ => rfl
      realUnused := fun _ => rfl
      frontier := fun h => by cases h
      writtenM1 := fun h => by cases h
      writtenM2 := fun h => by cases h
      callback := fun h => by rcases h with h | h <;> cases h
      inFlight := fun _ => rfl
      range := fun _ => by simp [running, ready, State.reset, small] }

/-- A band of one column in mode M2, its rows cleared. -/
def band (ph : Phase) : State := { inM2 .data zeros 4 with width := 5, clearedWidth := 4, phase := ph }.resetLineM2

/-- It meets the invariant in every phase. -/
theorem band_inv (ph : Phase) : (band ph).Inv where
  build := by simp only [band, State.resetLineM2_build]; decide
  params := by simp only [band, State.resetLineM2_params, State.resetLineM2_build]; rfl
  arrays := by
    constructor <;> simp only [band, State.resetLineM2_inbuf, State.resetLineM2_palette, State.resetLineM2_build]
    all_goals rfl
  faults := by simp only [band, State.resetLineM2_fault]; exact .nil
  notReady := fun h => by simp [band, inM2, running, ready] at h
  regs := fun _ =>
    { pLength := by simp [band, inM2, running, ready, State.reset, small]
      cursor := by simp [band, inM2, running, ready, State.reset, small]
      realWidth := by simp [band, inM2, running, ready, State.reset, small]
      clearedWidth := by simp [band, inM2, running, ready, State.reset, small, Build.rowCap]
      clearedStep := by simp [band]
      widthM2 := fun _ => by simp [band, inM2, running, ready, small, Build.rowCap]
      widthElse := fun h => by simp [band, inM2] at h
      paletteLength := by simp [band, inM2, running, ready, small]
      preamble := fun h => by simp [band, inM2] at h
      committed := fun _ => by simp [band, inM2]
      levels := by simp [band, inM2]
      levelM2 := fun _ => by simp [band, inM2]
      startCursor := fun h => by simp [band, inM2] at h
      realUnused := fun _ => by simp [band, inM2, running, ready, State.reset]
      frontier := fun h => by simp [band, inM2] at h
      writtenM1 := fun h => by simp [band, inM2] at h
      writtenM2 := fun _ => by
        intro r i j hr h4 hi hj
        rw [band, State.resetLineM2_width] at hi
        rw [band, State.resetLineM2_build]
        obtain ⟨m, h1, h2, _⟩ := State.paintRows_spec
          { inM2 .data zeros 4 with width := 5, clearedWidth := 4, phase := ph } 63 4 1 0xFF000000
        have e : (State.resetLineM2 { inM2 .data zeros 4 with width := 5, clearedWidth := 4, phase := ph }).rowbuf =
            m := congrArg State.rowbuf h1
        rw [e, (h2 _).1 (inRun_all _ 4 1 r i j hr h4 hi hj)]
        rfl
      callback := fun _ => by simp [band, inM2, running, ready, State.reset]
      inFlight := fun _ => by simp [band, inM2, running, ready, State.reset]
      range := fun _ => by simp [band, inM2, running, ready, State.reset, small] }

theorem test_witness_StepKeepsTheInvariant :
    (running 0x3B).Inv ∧ step (running 0x3B) = .next (nextOf (step (running 0x3B))) ∧ (band .run).Inv ∧
    step (band .run) = .next (nextOf (step (band .run))) ∧ (nextOf (step (band .run))).cursor = 5 :=
  ⟨running_inv _, next_of_runs (by decide +kernel), band_inv _, next_of_runs (by decide +kernel), by decide +kernel⟩

theorem test_witness_InvariantStatesNeverStop : (running 0x7E).Inv ∧ (band .waitBand).Inv :=
  ⟨running_inv _, band_inv _⟩

theorem test_witness_ExcludedStatesStop :
    (let s := { ready with parser := .color }; commits .dash = true ∧ s.mode = .undecided ∧ s.parser = .color) ∧
    ((inM1 .attr zeros 4).mode ≠ .undecided ∧ (inM1 .attr zeros 4).parser = .attr) ∧
    (let s := { ready with phase := .waitBand }; s.phase = .waitBand ∧ s.mode = .undecided) ∧
    (let s := { inM2 .data zeros 4 with phase := .waitBand, width := 133 };
      s.phase = .waitBand ∧ s.mode = .m2 ∧ s.build.rowCap < s.width) ∧
    (let s := { color zeros 1 with paletteLength := 0 };
      s.mode ≠ .undecided ∧ s.parser = .color ∧ s.paletteLength = 0) ∧
    (let s := { color zeros 1 with paletteLength := 3 }; s.build.paletteSize < s.paletteLength) := by decide

theorem test_witness_BuildParametersNeverChange :
    step (running 0x7E) = .next (nextOf (step (running 0x7E))) := next_of_runs (by decide +kernel)

/-- The states of the next two witnesses. -/
def aborted : State := { ready with abort := true }
def waiting : State := { inM2 .data zeros 4 with phase := .waitBand }
def idleM1 : State := { inM1 .data zeros 4 with phase := .idle }

theorem test_witness_AbortIsSticky :
    (exec (.answer 1) waiting = .next (nextOf (exec (.answer 1) waiting)) ∧ waiting.abort = false ∧
      (nextOf (exec (.answer 1) waiting)).abort = true) ∧
    (exec (.init 0 0 2 0) aborted = .next (nextOf (exec (.init 0 0 2 0) aborted)) ∧ aborted.abort = true ∧
      (nextOf (exec (.init 0 0 2 0) aborted)).abort = false) ∧
    exec (.decode 0 2) aborted = .next (nextOf (exec (.decode 0 2) aborted)) :=
  ⟨⟨next_of_runs (by decide +kernel), by decide +kernel⟩, ⟨next_of_runs (by decide +kernel), by decide +kernel⟩,
    next_of_runs (by decide +kernel)⟩

theorem test_witness_ModeChangesOnlyByInitAndCommit :
    (exec .dollar (running 0x24) = .next (nextOf (exec .dollar (running 0x24))) ∧
      (nextOf (exec .dollar (running 0x24))).mode ≠ (running 0x24).mode) ∧
    (exec (.init 0 0 2 0) idleM1 = .next (nextOf (exec (.init 0 0 2 0) idleM1)) ∧
      (nextOf (exec (.init 0 0 2 0) idleM1)).mode ≠ idleM1.mode) :=
  ⟨⟨next_of_runs (by decide +kernel), by decide +kernel⟩, ⟨next_of_runs (by decide +kernel), by decide +kernel⟩⟩

theorem test_witness_BlockNeverWritesGuardSlots :
    (band .run).Inv ∧ (band .run).inited = true ∧
    exec (.sixel 63) (band .run) = .next (nextOf (exec (.sixel 63) (band .run))) ∧
    (∀ sp k v, Instr.sixel 63 ≠ .hostWrite sp k v) ∧ (5 : Nat) < 6 ∧ (3 : Nat) < 4 :=
  ⟨band_inv _, by decide +kernel, next_of_runs (by decide +kernel), fun _ _ _ h => (by cases h), by decide, by decide⟩

theorem test_witness_ArraysChangeOnlyByTheirWriters :
    (∀ sp k v, Instr.bang ≠ .hostWrite sp k v) ∧ (∀ a e, Instr.bang ≠ .decode a e) ∧
    (exec .bang (color zeros 2) = .next (nextOf (exec .bang (color zeros 2))) ∧ (color zeros 2).isAssign = false) ∧
    (exec .bang idleM1 = .next (nextOf (exec .bang idleM1)) ∧ idleM1.parser ≠ .color) ∧
    (let s := color [1, 2, 100, 0, 0, 0, 0, 0] 5;
      exec .dollar s = .next (nextOf (exec .dollar s)) ∧ s.parser = .color ∧ s.isAssign = true ∧
        Instr.dollar ≠ .bang ∧ Instr.dollar ≠ .hash ∧ ∀ c, Instr.dollar ≠ .sixel c) :=
  ⟨fun _ _ _ h => (by cases h), fun _ _ h => (by cases h), ⟨next_of_runs (by decide +kernel), by decide +kernel⟩,
    ⟨next_of_runs (by decide +kernel), by decide +kernel⟩,
    ⟨next_of_runs (by decide +kernel), by decide +kernel, by decide +kernel, by decide, by decide,
      fun _ h => (by cases h)⟩⟩

theorem test_witness_EveryStepOfADecodeMakesProgress :
    (∀ q ∈ ([[], [⟨.synchronous, 4⟩], [⟨.afterBytes 1, 4⟩]] : List (List Request)),
      let s := { running 0x2D with port := q }
      s.Inv ∧ s.phase = .run ∧ ∀ w, s.port.head? ≠ some ⟨.afterBytes 0, w⟩) ∧
    ((band .waitMode).Inv ∧ (band .waitMode).phase = .waitMode) ∧
    ((band .waitBand).Inv ∧ (band .waitBand).phase = .waitBand) :=
  ⟨fun q hq => ⟨(running_inv _).withPort q, rfl, fun w h => by
      simp only [List.mem_cons, List.not_mem_nil, or_false] at hq
      rcases hq with rfl | rfl | rfl <;> simp at h⟩,
    ⟨band_inv _, by decide +kernel⟩, ⟨band_inv _, by decide +kernel⟩⟩

theorem test_witness_ByteRulesReadNoPosition :
    exec (decodeByte 0x24) idleM1 = .next (nextOf (exec (decodeByte 0x24) idleM1)) ∧
    exec (decodeByte 0x2D) idleM1 = .next (nextOf (exec (decodeByte 0x2D) idleM1)) :=
  ⟨next_of_runs (by decide +kernel), next_of_runs (by decide +kernel)⟩

theorem test_witness_BandPayloadIsWritten :
    (band .run).Inv ∧ (band .run).inited = true ∧ (band .run).mode ≠ .undecided ∧
    (nextOf (exec .dash (band .run))).out = [.callback .band 1] :=
  ⟨band_inv _, by decide +kernel, by decide +kernel, by decide +kernel⟩

theorem test_witness_HlsCornersAndExamples : (360 : Nat) ≤ 360 ∧ (100 : Nat) ≤ 100 := by decide

/-- A wait with a CURRENT_WIDTH pending is stuck; with an ANSWER behind it, it is not. -/
theorem test_witness_StuckStatesStayStuck :
    { waiting with port := [⟨.synchronous, 3⟩] }.stuck ∧
    ¬ { waiting with port := [⟨.synchronous, 3⟩, ⟨.synchronous, 4⟩] }.stuck := by
  refine ⟨⟨by decide +kernel, fun r hr v h => ?_⟩, fun h => h.2 ⟨.synchronous, 4⟩ (by decide +kernel) 0 (by decide +kernel)⟩
  have e : decodeCommand 3 = .ok .currentWidth := by decide +kernel
  rw [List.mem_singleton] at hr
  rw [hr, e] at h
  cases h

theorem test_witness_CallbacksCarryTheirKind :
    (exec .dash (band .run) = .next (nextOf (exec .dash (band .run))) ∧
      (nextOf (exec .dash (band .run))).out = .callback .band 1 :: (band .run).out) ∧
    (exec .dash (running 0x2D) = .next (nextOf (exec .dash (running 0x2D))) ∧
      (nextOf (exec .dash (running 0x2D))).out = .callback .mode 1 :: (running 0x2D).out ∧
      (nextOf (exec .dash (running 0x2D))).phase = .waitMode) :=
  ⟨⟨next_of_runs (by decide +kernel), by decide +kernel⟩,
    ⟨next_of_runs (by decide +kernel), by decide +kernel, by decide +kernel⟩⟩

end Sys2Proof.Tests
end

section
/-! SUPPORT. The HLS converter at its corners (R74 to R79): at lightness 0 both lightness terms are zeros, at
lightness 100 both are ones, so that no channel depends on the hue; and the settled statement about them. -/

namespace Sys2Proof.Machine

/-- A sum of two zeros is a zero. -/
theorem fpAdd_isZero (f : HlsFormat) (x y : Ratio) (hx : x.isZeroIn f) (hy : y.isZeroIn f) :
    (fpAdd f x y).isZeroIn f :=
  roundIn_isZero f _ (by simp [Ratio.add, hx.1, hy.1]) (Nat.mul_pos hx.2.1 hy.2.1)

/-- A difference of two zeros is a zero. -/
theorem fpSub_isZero (f : HlsFormat) (x y : Ratio) (hx : x.isZeroIn f) (hy : y.isZeroIn f) :
    (fpSub f x y).isZeroIn f :=
  roundIn_isZero f _ (by simp [Ratio.sub, hx.1, hy.1]) (Nat.mul_pos hx.2.1 hy.2.1)

theorem percentFraction_zero_isZero (f : HlsFormat) : (percentFraction f 0).isZeroIn f :=
  roundIn_isZero f _ rfl (by decide)

theorem percentFraction_den_pos (f : HlsFormat) (c : Nat) : 0 < (percentFraction f c).den :=
  fpDiv_den_pos f _ _ Nat.one_pos (by decide)

/-- A zero fraction is the channel byte 0 in every format (R78). -/
theorem channelByte_zero (f : HlsFormat) (z : Ratio) (h : z.isZeroIn f) : channelByte f z = 0 := by
  obtain ⟨hnum, -, hform⟩ := h
  cases f with
  | exact => exact channelByte_exact_zero z hnum
  | binary32 => obtain rfl := hform.resolve_left (by decide); decide +kernel
  | binary64 => obtain rfl := hform.resolve_left (by decide); decide +kernel

/-- At lightness 0 both lightness terms are zeros (R75). -/
theorem hlsTerms_black (f : HlsFormat) (s : Ratio) (hs : 0 < s.den) :
    (hlsTerms f (percentFraction f 0) s).1.isZeroIn f ∧ (hlsTerms f (percentFraction f 0) s).2.isZeroIn f := by
  have hl := percentFraction_zero_isZero f
  have hlt : (percentFraction f 0).lt ⟨1, 2⟩ = true := by
    obtain ⟨hnum, hden, -⟩ := hl
    simp only [Ratio.lt, hnum, decide_eq_true_eq]; omega
  have h1 : (fpMul f (percentFraction f 0) (fpAdd f (Ratio.ofNat 1) s)).isZeroIn f :=
    fpMul_isZero f _ _ hl (fpAdd_den_pos f _ _ Nat.one_pos hs)
  have h2 : (fpMul f (Ratio.ofNat 2) (percentFraction f 0)).isZeroIn f :=
    roundIn_isZero f _ (by simp [Ratio.mul, hl.1]) (Nat.mul_pos Nat.one_pos hl.2.1)
  simp only [hlsTerms, hlt, if_true]
  exact ⟨h1, fpSub_isZero f _ _ h2 h1⟩

/-- Lightness terms that give every channel the byte `b` at every hue: the hypotheses of `hlsChannels_const`. -/
def constantTerms (f : HlsFormat) (t : Ratio × Ratio) (b : Byte) : Prop :=
  (fpSub f t.1 t.2).isZeroIn f ∧ channelByte f t.1 = b ∧ channelByte f t.2 = b ∧
    ∀ z, z.isZeroIn f → channelByte f (fpAdd f t.2 z) = b

theorem constantTerms.hlsChannels_eq {f : HlsFormat} {t : Ratio × Ratio} {b : Byte} (ht : constantTerms f t b)
    (h : Nat) : hlsChannels f t (hueFraction f h) = packOpaque b b b := by
  obtain ⟨hd, h1, h2, hz⟩ := ht
  exact hlsChannels_const f t h b hd h1 h2 hz

/-- In the IEEE formats, which have one zero, `constantTerms` is a closed check. -/
theorem constantTerms_of_ieee {f : HlsFormat} {t : Ratio × Ratio} {b : Byte} (hf : f ≠ .exact)
    (h : fpSub f t.1 t.2 = ⟨0, 1⟩ ∧ channelByte f t.1 = b ∧ channelByte f t.2 = b ∧
      channelByte f (fpAdd f t.2 ⟨0, 1⟩) = b) : constantTerms f t b := by
  obtain ⟨hd, h1, h2, h0⟩ := h
  refine ⟨hd ▸ ⟨rfl, Nat.one_pos, .inr rfl⟩, h1, h2, fun z hz => ?_⟩
  rw [hz.2.2.resolve_left hf]
  exact h0

/-- Two zeros give every channel the byte 0. -/
theorem constantTerms_black (f : HlsFormat) (s : Nat) :
    constantTerms f (hlsTerms f (percentFraction f 0) (percentFraction f s)) 0 := by
  obtain ⟨h1, h2⟩ := hlsTerms_black f _ (percentFraction_den_pos f s)
  exact ⟨fpSub_isZero f _ _ h1 h2, channelByte_zero f _ h1, channelByte_zero f _ h2,
    fun z hz => channelByte_zero f _ (fpAdd_isZero f _ _ h2 hz)⟩

/-- In exact arithmetic both lightness terms of lightness 100 are 1: `1 * (1 - S) + S` and `2 * 1 - 1` (R75). -/
theorem hlsTerms_white_exact (s : Nat) :
    hlsTerms .exact (percentFraction .exact 100) (percentFraction .exact s) =
      (⟨1000000, 1000000⟩, ⟨100000000, 100000000⟩) := by
  have hsum : (100 : Int) * (100 - s) * 100 + s * 10000 = 1000000 := by ring
  have hlt : (percentFraction .exact 100).lt ⟨1, 2⟩ = false := by decide
  simp only [hlsTerms, hlt]
  simp [percentFraction, fpDiv, fpAdd, fpMul, fpSub, roundIn, Ratio.div, Ratio.add, Ratio.mul, Ratio.sub,
    Ratio.ofNat, hsum]

/-- At lightness 100 every channel is the byte 255. In exact arithmetic both terms are 1; in the IEEE formats
`1 - S + S` is rounded back to 1, in more than one representation, which is checked for each percentage. -/
theorem constantTerms_white (f : HlsFormat) (s : Nat) (hs : s ≤ 100) :
    constantTerms f (hlsTerms f (percentFraction f 100) (percentFraction f s)) 255 := by
  cases f with
  | exact =>
    rw [hlsTerms_white_exact]
    refine ⟨⟨by decide, by decide, .inl rfl⟩, channelByte_exact_one _ rfl (by decide),
      channelByte_exact_one _ rfl (by decide), ?_⟩
    rintro z ⟨hnum, hden, -⟩
    exact channelByte_exact_one _ (by simp [fpAdd, roundIn, Ratio.add, hnum]) (Nat.mul_pos (by decide) hden)
  | binary32 => exact constantTerms_of_ieee (by decide) (by revert s; decide +kernel)
  | binary64 => exact constantTerms_of_ieee (by decide) (by revert s; decide +kernel)

/-- Lightness 0 is black at every hue and saturation, in every format. -/
theorem normalizeHls_black (f : HlsFormat) (h s : Nat) : normalizeHls f h 0 s = 0xFF000000 := by
  unfold normalizeHls
  split
  · decide
  · rw [(constantTerms_black f s).hlsChannels_eq]; rfl

/-- Lightness 100 is white at every hue and saturation, in every format. -/
theorem normalizeHls_white (f : HlsFormat) (h s : Nat) (hs : s ≤ 100) : normalizeHls f h 100 s = 0xFFFFFFFF := by
  unfold normalizeHls
  split
  · decide
  · rw [(constantTerms_white f s hs).hlsChannels_eq]; rfl

/-- Hue 360 is hue 0: both are the fraction `240 / 360` of the circle (R74). -/
theorem hueFraction_360 (f : HlsFormat) : hueFraction f 360 = hueFraction f 0 := rfl

/-- The three examples of R79: the primaries at lightness 50 and full saturation. -/
theorem normalizeHls_primaries (f : HlsFormat) :
    normalizeHls f 120 50 100 = 0xFF0000FF ∧ normalizeHls f 240 50 100 = 0xFF00FF00 ∧
      normalizeHls f 0 50 100 = 0xFFFF0000 := by
  cases f <;> decide +kernel

/-- Settles O41: the corners by the constancy of the channels in the hue, the worked examples by evaluation. -/
theorem hlsCornersAndExamples : Obligations.HlsCornersAndExamples := by
  refine ⟨fun f h s _ hs => ⟨normalizeHls_black f h s, normalizeHls_white f h s hs⟩, fun f l s => ?_,
    normalizeHls_primaries, ?_⟩
  · rw [normalizeHls, normalizeHls, hueFraction_360]
  · decide +kernel

end Sys2Proof.Machine
end

section
/-! SUPPORT. No operation of the block writes the build parameters (R5 to R8): one lemma per operation that is not a
named update of State, one per instruction that branches, and the settled statement about the step. -/

namespace Sys2Proof.Machine

variable (s : State)

@[simp] theorem State.writeBytes_build (sp : Space) (a : Nat) (bs : List Byte) :
    (s.writeBytes sp a bs).build = s.build := by
  cases sp <;> rfl

@[simp] theorem State.addDigit_build (d : BitVec 4) : (s.addDigit d).build = s.build := rfl

@[simp] theorem State.openParam_build : s.openParam.build = s.build := by
  unfold State.openParam
  split <;> rfl

@[simp] theorem State.openList_build (p : ParserState) : (s.openList p).build = s.build := rfl

@[simp] theorem State.emitBandM1_build : s.emitBandM1.build = s.build := rfl

@[simp] theorem State.resetLine_build : s.resetLine.build = s.build := by
  unfold State.resetLine
  split
  · exact s.resetLineM1_build
  · exact s.resetLineM2_build

@[simp] theorem State.commitCommon_build : s.commitCommon.build = s.build := by
  simp [State.commitCommon]

@[simp] theorem State.sixelDataM1_build (c : BitVec 6) : (s.sixelDataM1 c).build = s.build := by
  simp [State.sixelDataM1]

@[simp] theorem State.sixelRunM1_build (c : BitVec 6) : (s.sixelRunM1 c).build = s.build := by
  simp [State.sixelRunM1]

@[simp] theorem State.sixelDataM2_build (c : BitVec 6) : (s.sixelDataM2 c).build = s.build := by
  simp [State.sixelDataM2]

@[simp] theorem State.sixelRunM2_build (c : BitVec 6) : (s.sixelRunM2 c).build = s.build := by
  simp [State.sixelRunM2]

@[simp] theorem State.initialise_build (c f p t : Word) : (s.initialise c f p t).build = s.build := rfl

@[simp] theorem State.startDecode_build (a e : Word) : (s.startDecode a e).build = s.build := rfl

@[simp] theorem State.reportWidth_build : s.reportWidth.build = s.build := by
  unfold State.reportWidth
  split <;> rfl

@[simp] theorem State.answerMode_build (v : Word) : (s.answerMode v).build = s.build := by
  unfold State.answerMode
  split <;> rfl

@[simp] theorem State.answerBandM1_build (v : Word) : (s.answerBandM1 v).build = s.build := by
  unfold State.answerBandM1
  split
  · rfl
  · simp

@[simp] theorem State.writeElement_build (sp : Space) (i : Nat) (v : Word) :
    (s.writeElement sp i v).build = s.build := by
  cases sp <;> rfl

end Sys2Proof.Machine

namespace Sys2Proof.Machine

variable {s t : State}

theorem State.answerBandM2_keeps_build {v : Word} (h : s.answerBandM2 v = .next t) : t.build = s.build := by
  unfold State.answerBandM2 at h
  split at h
  · cases h; rfl
  · split at h
    · cases h; simp
    · cases h

theorem State.commit_keeps_build (h : s.commit = .next t) : t.build = s.build := by
  rcases State.commit_cases h with ⟨-, rfl⟩ | ⟨-, -, rfl⟩ | ⟨-, -, rfl⟩
  · rw [State.commitCommon_build, State.commitPlain, State.commitL1_build]
  · rw [State.commitCommon_build, State.commitRaster_build]
  · rw [State.commitCommon_build, State.commitMalformed, State.commitL1_build]

/-- Ending an open color introducer keeps the build parameters if the rest of the byte rule does. -/
theorem State.resolveThen_keeps_build {g : State → State} (hg : ∀ u, (g u).build = u.build)
    (h : s.resolveThen (fun u => .next (g u)) = .next t) : t.build = s.build := by
  rcases State.resolveThen_cases h with ⟨-, -, e⟩ | ⟨-, e⟩
  · cases e; rw [hg, State.resolveColor_build]
  · cases e; exact hg s

theorem execBang_keeps_build (h : execBang s = .next t) : t.build = s.build := by
  unfold execBang at h
  split at h
  · exact State.commit_keeps_build h
  · exact State.resolveThen_keeps_build (fun u => u.openList_build _) h
  · exact State.resolveThen_keeps_build (fun u => u.openList_build _) h

theorem execHash_keeps_build (h : execHash s = .next t) : t.build = s.build := by
  unfold execHash at h
  split at h
  · exact State.commit_keeps_build h
  · exact State.resolveThen_keeps_build (fun u => u.openList_build _) h
  · exact State.resolveThen_keeps_build (fun u => u.openList_build _) h

theorem execQuote_keeps_build (h : execQuote s = .next t) : t.build = s.build := by
  unfold execQuote at h
  split at h
  · split at h <;> cases h <;> rfl
  · cases h; rfl
  · cases h; rfl

theorem execDollar_keeps_build (h : execDollar s = .next t) : t.build = s.build := by
  unfold execDollar at h
  split at h
  · exact State.commit_keeps_build h
  · cases h; rfl
  · cases h; rfl

theorem execDash_keeps_build (h : execDash s = .next t) : t.build = s.build := by
  unfold execDash at h
  split at h
  · exact State.commit_keeps_build h
  · cases h; exact s.emitBandM1_build
  · cases h; exact s.raiseBand_build _

theorem execSixel_keeps_build {c : BitVec 6} (h : execSixel c s = .next t) : t.build = s.build := by
  unfold execSixel at h
  split at h
  · exact State.commit_keeps_build h
  · split at h
    · cases h; exact s.sixelDataM1_build c
    · cases h; exact s.sixelRunM1_build c
    · exact State.resolveThen_keeps_build (g := fun u => { u with parser := .data }.sixelDataM1 c)
        (fun _ => State.sixelDataM1_build _ c) h
    · cases h
  · split at h
    · cases h; exact s.sixelDataM2_build c
    · cases h; exact s.sixelRunM2_build c
    · exact State.resolveThen_keeps_build (g := fun u => { u with parser := .data }.sixelDataM2 c)
        (fun _ => State.sixelDataM2_build _ c) h
    · cases h

theorem execInit_keeps_build {c f p u : Word} (h : execInit c f p u s = .next t) : t.build = s.build := by
  unfold execInit at h
  split at h
  · cases h; exact s.initialise_build c f p u
  · cases h; exact s.refuse_build _ _

theorem execDecode_keeps_build {a e : Word} (h : execDecode a e s = .next t) : t.build = s.build := by
  unfold execDecode at h
  split at h
  · cases h; exact s.refuse_build _ _
  · split at h
    · cases h; exact s.refuse_build _ _
    · split at h
      · cases h; exact s.refuse_build _ _
      · split at h
        · cases h; exact s.complete_build
        · cases h; exact s.startDecode_build a e

theorem execCurrentWidth_keeps_build (h : execCurrentWidth s = .next t) : t.build = s.build := by
  unfold execCurrentWidth at h
  split at h
  · cases h; exact s.refuse_build _ _
  · split at h
    · cases h; exact s.refuse_build _ _
    · cases h; exact s.reportWidth_build

theorem execAnswer_keeps_build {v : Word} (h : execAnswer v s = .next t) : t.build = s.build := by
  unfold execAnswer at h
  split at h
  · cases h; exact s.refuse_build _ _
  · cases h; exact s.refuse_build _ _
  · cases h; exact s.answerMode_build v
  · split at h
    · cases h
    · cases h; exact s.answerBandM1_build v
    · exact State.answerBandM2_keeps_build h

theorem execHostRead_keeps_build {sp : Space} {k : Word} (h : execHostRead sp k s = .next t) :
    t.build = s.build := by
  unfold execHostRead at h
  split at h
  · cases h; exact s.refuse_build _ _
  · split at h
    · cases h; exact s.refuse_build _ _
    · cases h; exact s.send_build _

theorem execHostWrite_keeps_build {sp : Space} {k v : Word} (h : execHostWrite sp k v s = .next t) :
    t.build = s.build := by
  unfold execHostWrite at h
  split at h
  · cases h; exact s.refuse_build _ _
  · split at h
    · cases h; exact s.refuse_build _ _
    · cases h; exact s.writeElement_build _ _ _

/-- No instruction changes the build parameters. -/
theorem exec_keeps_build {i : Instr} (h : exec i s = .next t) : t.build = s.build := by
  cases i with
  | digit d => cases h; rfl
  | semi => cases h; exact s.openParam_build
  | bang => exact execBang_keeps_build h
  | hash => exact execHash_keeps_build h
  | quote => exact execQuote_keeps_build h
  | dollar => exact execDollar_keeps_build h
  | dash => exact execDash_keeps_build h
  | sixel c => exact execSixel_keeps_build h
  | ignored => cases h; rfl
  | init c f p u => exact execInit_keeps_build h
  | decode a e => exact execDecode_keeps_build h
  | currentWidth => exact execCurrentWidth_keeps_build h
  | answer v => exact execAnswer_keeps_build h
  | hostRead sp k => exact execHostRead_keeps_build h
  | hostWrite sp k v => exact execHostWrite_keeps_build h

end Sys2Proof.Machine

namespace Sys2Proof.Machine

/-- Everything a completed step can be: a wait, the end of a DECODE, an instruction, or a word of the command port
that is no transaction; the last three after the port was counted down or a transaction was taken from it. -/
theorem step_cases {s t : State} (h : step s = .next t) :
    t = s ∨ ∃ q, t = ({ s with port := q } : State).complete ∨ (∃ i, exec i { s with port := q } = .next t) ∨
      ∃ w, t = ({ s with port := q } : State).refuse .badCommand (.unknown w) := by
  unfold step at h
  rcases s.turn_cases with ⟨e, -, -⟩ | ⟨q, (⟨e, -, -⟩ | ⟨e, -⟩ | ⟨e, -⟩) | ⟨r, -, ⟨i, -, e⟩ | ⟨x, -, e⟩⟩⟩ <;>
    rw [e] at h
  · cases h; exact .inl rfl
  · cases h; exact .inr ⟨q, .inl rfl⟩
  · exact .inr ⟨q, .inr (.inl ⟨_, h⟩)⟩
  · cases h
  · exact .inr ⟨q, .inr (.inl ⟨i, h⟩)⟩
  · cases h; exact .inr ⟨q, .inr (.inr ⟨_, rfl⟩)⟩

/-- Settles O51: apart from its instruction a step changes at most the port, the event list, the phase and `fault`,
and no instruction changes the build parameters. -/
theorem buildParametersNeverChange : Obligations.BuildParametersNeverChange := by
  intro s t h
  rcases step_cases h with rfl | ⟨q, rfl | ⟨i, hi⟩ | ⟨w, rfl⟩⟩
  · rfl
  · rfl
  · exact exec_keeps_build (s := { s with port := q }) hi
  · rfl

end Sys2Proof.Machine
end

section
/-! SUPPORT. Whose move a step is while the block runs (R151, log 6), by what stands in the port, and the settled
statement. -/

namespace Sys2Proof.Machine

variable {s : State}

theorem State.turn_run_nil (hr : s.phase = .run) (hp : s.port = []) : s.turn = s.byteTurn := by
  simp only [State.turn, hp, hr, if_true]

theorem State.turn_run_synchronous {w : TxnWord} {rest : List Request} (hr : s.phase = .run)
    (hp : s.port = ⟨.synchronous, w⟩ :: rest) : s.turn = s.byteTurn := by
  simp only [State.turn, hp, hr, if_true]

/-- A transaction that lets `n + 1` more bytes go first is counted down by one. -/
theorem State.turn_run_afterBytes {n : Nat} {w : TxnWord} {rest : List Request} (hr : s.phase = .run)
    (hp : s.port = ⟨.afterBytes (n + 1), w⟩ :: rest) :
    s.turn = ({ s with port := ⟨.afterBytes n, w⟩ :: rest } : State).byteTurn := by
  simp only [State.turn, hp, hr, if_true]

/-- With bytes left, the block's move is the meaning of the byte at `pos` (R151). -/
theorem step_of_byteTurn {t : State} (ht : s.turn = t.byteTurn) (hne : t.pos ≠ t.endPos)
    (hlt : t.pos < t.build.chunkSize) : step s = exec (decodeByte (t.byteAt .inbuf t.pos)) t := by
  rw [step, ht, State.byteTurn, if_neg hne, if_pos hlt]

end Sys2Proof.Machine

namespace Sys2Proof.Machine

/-- Settles O6: in RUN the turn is the block's for each of the three ports. -/
theorem stepRunsTheByteAtPos : Obligations.StepRunsTheByteAtPos := by
  intro s i hr hne hlt hd
  have hi : decodeByte (s.byteAt .inbuf s.pos) = i := Except.ok.inj hd
  refine ⟨fun hp => ?_, fun w rest hp => ?_, fun n w rest hp => ?_⟩
  · rw [step_of_byteTurn (State.turn_run_nil hr hp) hne hlt, hi]
  · rw [step_of_byteTurn (State.turn_run_synchronous hr hp) hne hlt, hi]
  · rw [← hi]
    exact step_of_byteTurn (State.turn_run_afterBytes hr hp) hne hlt

end Sys2Proof.Machine
end

section
/-! SUPPORT. The invariant after power-on (R173): it asks of an uninitialised block only what the spec fixes there, and
the settled statement. -/

namespace Sys2Proof.Machine

/-- Arrays in which nothing is written meet their part of the invariant. -/
theorem State.arraysOk_of_empty {s : State} (hi : s.inbuf = []) (hp : s.palette = []) (hr : s.rowbuf = []) :
    s.ArraysOk where
  inbufWf := by rw [hi]; rfl
  paletteWf := by rw [hp]; rfl
  rowbufWf := by rw [hr]; rfl
  inbufBelow := by rw [hi]; rfl
  paletteBelow := by rw [hp]; rfl
  rowbufBelow := by rw [hr]; rfl

/-- A power-on state meets the invariant, whatever its unspecified registers hold (R173). -/
theorem State.inv_of_powerOn {s : State} (hb : s.build.legal) (hl : s.params.length = s.build.paramSize)
    (hn : s.inited = false) (hph : s.phase = .idle) (hf : s.fault = []) (hi : s.inbuf = []) (hp : s.palette = [])
    (hr : s.rowbuf = []) : s.Inv where
  build := hb
  params := hl
  arrays := State.arraysOk_of_empty hi hp hr
  faults := by rw [hf]; exact .nil
  notReady := fun _ => hph
  regs := fun h => absurd (hn.symm.trans h) Bool.false_ne_true

/-- Settles O47; the reset state is one of the power-on states. -/
theorem powerOnMeetsTheInvariant : Obligations.PowerOnMeetsTheInvariant :=
  ⟨fun _ => State.inv_of_powerOn, State.inv_of_powerOn (by decide) rfl rfl rfl rfl rfl rfl rfl⟩

end Sys2Proof.Machine
end

section
/-! SUPPORT. What each instruction can do, said once: the transitions of `exec` as two relations, one for the bytes of
the stream and one for the transactions of the host, and that every completed instruction is one of them. -/

namespace Sys2Proof.Machine

/-- `u` is `s` with an open color introducer ended (R84). -/
def State.resolvesTo (s u : State) : Prop :=
  (s.parser = .color ∧ s.paletteOk = true ∧ u = s.resolveColor) ∨ (s.parser ≠ .color ∧ u = s)

/-- `u` is `s` with the registers of one of the three commits (R105 to R107). -/
def State.commitsTo (s u : State) : Prop := u = s.commitPlain ∨ u = s.commitRaster ∨ u = s.commitMalformed

/-- What a byte of the stream can do. -/
inductive ByteEffect : Instr → State → State → Prop where
  | digit (d : BitVec 4) (s : State) : ByteEffect (.digit d) s (s.addDigit d).advance
  | semi (s : State) : ByteEffect .semi s s.openParam.advance
  | ignored (s : State) : ByteEffect .ignored s s.advance
  | quoteOpens {s : State} (hm : s.mode = .undecided) (hp : s.parser = .data) :
      ByteEffect .quote s (s.openList .attr)
  | quoteSkips {s : State} (h : s.mode = .undecided → s.parser ≠ .data) : ByteEffect .quote s s.advance
  | commit {i : Instr} {s u : State} (hi : commits i = true) (hm : s.mode = .undecided) (hu : s.commitsTo u) :
      ByteEffect i s u.commitCommon
  | bang {s u : State} (hm : s.mode ≠ .undecided) (hu : s.resolvesTo u) :
      ByteEffect .bang s (u.openList .compression)
  | hash {s u : State} (hm : s.mode ≠ .undecided) (hu : s.resolvesTo u) : ByteEffect .hash s (u.openList .color)
  | dollarM1 {s : State} (hm : s.mode = .m1) : ByteEffect .dollar s { s.updateRealWidth with cursor := 4 }.advance
  | dollarM2 {s : State} (hm : s.mode = .m2) : ByteEffect .dollar s { s with cursor := 4 }.advance
  | dashM1 {s : State} (hm : s.mode = .m1) : ByteEffect .dash s s.emitBandM1
  | dashM2 {s : State} (hm : s.mode = .m2) : ByteEffect .dash s (s.raiseBand (s.width - 4))
  | sixelDataM1 {s : State} (c : BitVec 6) (hm : s.mode = .m1) (hp : s.parser = .data) :
      ByteEffect (.sixel c) s (s.sixelDataM1 c)
  | sixelRunM1 {s : State} (c : BitVec 6) (hm : s.mode = .m1) (hp : s.parser = .compression) :
      ByteEffect (.sixel c) s (s.sixelRunM1 c)
  | sixelColorM1 {s u : State} (c : BitVec 6) (hm : s.mode = .m1) (hp : s.parser = .color) (hu : s.resolvesTo u) :
      ByteEffect (.sixel c) s ({ u with parser := .data }.sixelDataM1 c)
  | sixelDataM2 {s : State} (c : BitVec 6) (hm : s.mode = .m2) (hp : s.parser = .data) :
      ByteEffect (.sixel c) s (s.sixelDataM2 c)
  | sixelRunM2 {s : State} (c : BitVec 6) (hm : s.mode = .m2) (hp : s.parser = .compression) :
      ByteEffect (.sixel c) s (s.sixelRunM2 c)
  | sixelColorM2 {s u : State} (c : BitVec 6) (hm : s.mode = .m2) (hp : s.parser = .color) (hu : s.resolvesTo u) :
      ByteEffect (.sixel c) s ({ u with parser := .data }.sixelDataM2 c)

/-- What a transaction of the host can do: be refused, or its admitted effect. -/
inductive HostEffect : Instr → State → State → Prop where
  | refused (i : Instr) (s : State) (c : FaultCode) : HostEffect i s (s.refuse c (.known i))
  | init {s : State} (c f p u : Word) (hp : s.phase = .idle) : HostEffect (.init c f p u) s (s.initialise c f p u)
  | decodeAborted {s : State} (a e : Word) (hp : s.phase = .idle) (ha : s.abort = true) :
      HostEffect (.decode a e) s s.complete
  | decodeStarted {s : State} (a e : Word) (hi : s.inited = true) (hp : s.phase = .idle)
      (hr : s.rangeOk a e = true) (ha : s.abort = false) : HostEffect (.decode a e) s (s.startDecode a e)
  | currentWidth {s : State} (hi : s.inited = true) (hp : s.phase ≠ .run) :
      HostEffect .currentWidth s s.reportWidth
  | answerMode {s : State} (v : Word) (hp : s.phase = .waitMode) : HostEffect (.answer v) s (s.answerMode v)
  | answerBandM1 {s : State} (v : Word) (hp : s.phase = .waitBand) (hm : s.mode = .m1) :
      HostEffect (.answer v) s (s.answerBandM1 v)
  | answerBandM2Abort {s : State} (v : Word) (hp : s.phase = .waitBand) (hm : s.mode = .m2)
      (hv : nonZero v = true) : HostEffect (.answer v) s { s.resume with abort := true, cursor := 4 }.complete
  | answerBandM2Clear {s : State} (v : Word) (hp : s.phase = .waitBand) (hm : s.mode = .m2)
      (hv : nonZero v = false) (hw : s.width ≤ s.build.rowCap) :
      HostEffect (.answer v) s { s.resume.resetLineM2 with cursor := 4 }.advance
  | hostRead {s : State} (sp : Space) (k : Word) :
      HostEffect (.hostRead sp k) s (s.send (s.readElement sp k.toNat))
  | hostWrite {s : State} (sp : Space) (k v : Word) (hp : s.phase = .idle) (hk : k.toNat < s.build.count sp) :
      HostEffect (.hostWrite sp k v) s { s.writeElement sp k.toNat v with guardEpoch := s.guardEpoch + 1 }

variable {s t : State}

/-! The bytes of the stream -/

theorem execBang_committed (hm : s.mode ≠ .undecided) :
    execBang s = s.resolveThen fun t => .next (t.openList .compression) := by
  unfold execBang
  split
  · exact absurd ‹_› hm
  · rfl
  · rfl

theorem execHash_committed (hm : s.mode ≠ .undecided) :
    execHash s = s.resolveThen fun t => .next (t.openList .color) := by
  unfold execHash
  split
  · exact absurd ‹_› hm
  · rfl
  · rfl

/-- A byte rule that ends an open color introducer goes on from the resolved state. -/
theorem State.resolvesTo_of_resolveThen {g : State → State} (h : s.resolveThen (fun u => .next (g u)) = .next t) :
    ∃ u, s.resolvesTo u ∧ t = g u := by
  rcases State.resolveThen_cases h with ⟨hp, hk, e⟩ | ⟨hp, e⟩
  · cases e; exact ⟨_, .inl ⟨hp, hk, rfl⟩, rfl⟩
  · cases e; exact ⟨_, .inr ⟨hp, rfl⟩, rfl⟩

/-- A commit writes the raster registers, the mode, the level, the width and the height (R105 to R107). -/
theorem State.commitsTo.only (hu : s.commitsTo t) :
    t = { s with
      level := t.level, mode := t.mode, rNum := t.rNum, rDenom := t.rDenom, rWidth := t.rWidth
      rHeight := t.rHeight, width := t.width, height := t.height } := by
  rcases hu with rfl | rfl | rfl <;> rfl

/-- A commit decides for M1 without a width, or for M2 in level L2 with a width in its range (R105 to R107). -/
theorem State.commitsTo.mode_cases (hu : s.commitsTo t) :
    (t.mode = .m1 ∧ t.level ≠ .undecided ∧ t.width = 0) ∨
      (t.mode = .m2 ∧ t.level = .l2 ∧ 4 ≤ t.width ∧ t.width ≤ s.build.rowCap) := by
  rcases hu with rfl | rfl | rfl
  · exact .inl ⟨rfl, Level.noConfusion, rfl⟩
  · cases ht : s.truncate with
    | true =>
      rw [State.commitRaster_mode, State.commitRaster_level, State.commitRaster_width, ht, if_pos rfl, if_pos rfl,
        Build.rowCap]
      exact .inr ⟨rfl, rfl, by omega, by omega⟩
    | false =>
      rw [State.commitRaster_mode, State.commitRaster_level, State.commitRaster_width, ht]
      exact .inl ⟨rfl, Level.noConfusion, rfl⟩
  · exact .inl ⟨rfl, Level.noConfusion, rfl⟩

/-- A committing byte in mode Undecided commits (R104). -/
theorem ByteEffect.of_commit {i : Instr} (hi : commits i = true) (hm : s.mode = .undecided)
    (h : s.commit = .next t) : ByteEffect i s t := by
  rcases State.commit_cases h with ⟨-, rfl⟩ | ⟨-, -, rfl⟩ | ⟨-, -, rfl⟩
  · exact .commit hi hm (.inl rfl)
  · exact .commit hi hm (.inr (.inl rfl))
  · exact .commit hi hm (.inr (.inr rfl))

theorem execBang_effect (h : execBang s = .next t) : ByteEffect .bang s t := by
  by_cases hm : s.mode = .undecided
  · exact .of_commit rfl hm ((exec_of_commits .bang s rfl hm).symm.trans h)
  · rw [execBang_committed hm] at h
    obtain ⟨u, hu, rfl⟩ := State.resolvesTo_of_resolveThen h
    exact .bang hm hu

theorem execHash_effect (h : execHash s = .next t) : ByteEffect .hash s t := by
  by_cases hm : s.mode = .undecided
  · exact .of_commit rfl hm ((exec_of_commits .hash s rfl hm).symm.trans h)
  · rw [execHash_committed hm] at h
    obtain ⟨u, hu, rfl⟩ := State.resolvesTo_of_resolveThen h
    exact .hash hm hu

theorem execQuote_effect (h : execQuote s = .next t) : ByteEffect .quote s t := by
  unfold execQuote at h
  split at h
  · split at h
    · cases h; exact .quoteOpens ‹_› ‹_›
    · cases h; exact .quoteSkips fun _ => ‹_›
  · next hm => cases h; exact .quoteSkips fun e => Mode.noConfusion (hm.symm.trans e)
  · next hm => cases h; exact .quoteSkips fun e => Mode.noConfusion (hm.symm.trans e)

theorem execDollar_effect (h : execDollar s = .next t) : ByteEffect .dollar s t := by
  unfold execDollar at h
  split at h
  · exact .of_commit rfl ‹_› h
  · cases h; exact .dollarM1 ‹_›
  · cases h; exact .dollarM2 ‹_›

theorem execDash_effect (h : execDash s = .next t) : ByteEffect .dash s t := by
  unfold execDash at h
  split at h
  · exact .of_commit rfl ‹_› h
  · cases h; exact .dashM1 ‹_›
  · cases h; exact .dashM2 ‹_›

theorem execSixel_effect {c : BitVec 6} (h : execSixel c s = .next t) : ByteEffect (.sixel c) s t := by
  unfold execSixel at h
  split at h
  · exact .of_commit rfl ‹_› h
  · split at h
    · cases h; exact .sixelDataM1 c ‹_› ‹_›
    · cases h; exact .sixelRunM1 c ‹_› ‹_›
    · obtain ⟨u, hu, rfl⟩ :=
        State.resolvesTo_of_resolveThen (g := fun u => { u with parser := .data }.sixelDataM1 c) h
      exact .sixelColorM1 c ‹_› ‹_› hu
    · cases h
  · split at h
    · cases h; exact .sixelDataM2 c ‹_› ‹_›
    · cases h; exact .sixelRunM2 c ‹_› ‹_›
    · obtain ⟨u, hu, rfl⟩ :=
        State.resolvesTo_of_resolveThen (g := fun u => { u with parser := .data }.sixelDataM2 c) h
      exact .sixelColorM2 c ‹_› ‹_› hu
    · cases h

/-! The transactions of the host -/

theorem execInit_effect {c f p u : Word} (h : execInit c f p u s = .next t) : HostEffect (.init c f p u) s t := by
  unfold execInit at h
  split at h
  · cases h; exact .init c f p u ‹_›
  · cases h; exact .refused _ s _

theorem execDecode_effect {a e : Word} (h : execDecode a e s = .next t) : HostEffect (.decode a e) s t := by
  unfold execDecode at h
  split at h
  · cases h; exact .refused _ s _
  · next hi =>
    split at h
    · cases h; exact .refused _ s _
    · next hp =>
      split at h
      · cases h; exact .refused _ s _
      · next hr =>
        split at h
        · next ha => cases h; exact .decodeAborted a e (not_not.1 hp) ha
        · next ha =>
          cases h
          exact .decodeStarted a e (by simpa using hi) (not_not.1 hp) (by simpa using hr) (by simpa using ha)

theorem execCurrentWidth_effect (h : execCurrentWidth s = .next t) : HostEffect .currentWidth s t := by
  unfold execCurrentWidth at h
  split at h
  · cases h; exact .refused _ s _
  · next hi =>
    split at h
    · cases h; exact .refused _ s _
    · next hp => cases h; exact .currentWidth (by simpa using hi) hp

theorem State.answerBandM2_effect {v : Word} (hp : s.phase = .waitBand) (hm : s.mode = .m2)
    (h : s.answerBandM2 v = .next t) : HostEffect (.answer v) s t := by
  unfold State.answerBandM2 at h
  split at h
  · cases h; exact .answerBandM2Abort v hp hm ‹_›
  · next hv =>
    split at h
    · cases h; exact .answerBandM2Clear v hp hm (Bool.eq_false_of_not_eq_true hv) ‹_›
    · cases h

theorem execAnswer_effect {v : Word} (h : execAnswer v s = .next t) : HostEffect (.answer v) s t := by
  unfold execAnswer at h
  split at h
  · cases h; exact .refused _ s _
  · cases h; exact .refused _ s _
  · cases h; exact .answerMode v ‹_›
  · split at h
    · cases h
    · cases h; exact .answerBandM1 v ‹_› ‹_›
    · exact State.answerBandM2_effect ‹_› ‹_› h

theorem execHostRead_effect {sp : Space} {k : Word} (h : execHostRead sp k s = .next t) :
    HostEffect (.hostRead sp k) s t := by
  unfold execHostRead at h
  split at h
  · cases h; exact .refused _ s _
  · split at h
    · cases h; exact .refused _ s _
    · cases h; exact .hostRead sp k

theorem execHostWrite_effect {sp : Space} {k v : Word} (h : execHostWrite sp k v s = .next t) :
    HostEffect (.hostWrite sp k v) s t := by
  unfold execHostWrite at h
  split at h
  · cases h; exact .refused _ s _
  · next hp =>
    split at h
    · cases h; exact .refused _ s _
    · next hk => cases h; exact .hostWrite sp k v (not_not.1 hp) (Nat.lt_of_not_le hk)

/-- Every completed instruction is one of the effects. -/
theorem effect_of_exec {i : Instr} (h : exec i s = .next t) : ByteEffect i s t ∨ HostEffect i s t := by
  cases i with
  | digit d => cases h; exact .inl (.digit d s)
  | semi => cases h; exact .inl (.semi s)
  | bang => exact .inl (execBang_effect h)
  | hash => exact .inl (execHash_effect h)
  | quote => exact .inl (execQuote_effect h)
  | dollar => exact .inl (execDollar_effect h)
  | dash => exact .inl (execDash_effect h)
  | sixel c => exact .inl (execSixel_effect h)
  | ignored => cases h; exact .inl (.ignored s)
  | init c f p u => exact .inr (execInit_effect h)
  | decode a e => exact .inr (execDecode_effect h)
  | currentWidth => exact .inr (execCurrentWidth_effect h)
  | answer v => exact .inr (execAnswer_effect h)
  | hostRead sp k => exact .inr (execHostRead_effect h)
  | hostWrite sp k v => exact .inr (execHostWrite_effect h)

/-- An instruction taken from the command port has the effect of a transaction. -/
theorem hostEffect_of_decodeCommand {w : TxnWord} {i : Instr} (hd : decodeCommand w = .ok i)
    (h : exec i s = .next t) : HostEffect i s t := by
  rcases decodeCommand_cases hd with ⟨c, f, p, u, rfl⟩ | ⟨a, e, rfl⟩ | rfl | ⟨v, rfl⟩ | ⟨sp, k, rfl⟩ |
    ⟨sp, k, v, rfl⟩
  · exact execInit_effect h
  · exact execDecode_effect h
  · exact execCurrentWidth_effect h
  · exact execAnswer_effect h
  · exact execHostRead_effect h
  · exact execHostWrite_effect h

end Sys2Proof.Machine
end

section
/-! SUPPORT. What an instruction does to `mode`, `abort` and `fault`, and the settled statements about them. Only INIT,
a commit, a non-zero answer and a refusal write one of the three. -/

namespace Sys2Proof.Machine

/-- From `s` to `t` the decode mode, the abort flag and the fault records are the same. -/
structure State.SameControl (s t : State) : Prop where
  mode  : t.mode = s.mode
  abort : t.abort = s.abort
  fault : t.fault = s.fault

variable {s t u : State}

/-! The operations that write none of the three -/

theorem State.sameControl_openParam (s : State) : s.SameControl s.openParam := by
  unfold State.openParam
  split <;> exact ⟨rfl, rfl, rfl⟩

theorem State.sameControl_sixelDataM1 (s : State) (c : BitVec 6) : s.SameControl (s.sixelDataM1 c) :=
  ⟨by simp [State.sixelDataM1], by simp [State.sixelDataM1], by simp [State.sixelDataM1]⟩

theorem State.sameControl_sixelRunM1 (s : State) (c : BitVec 6) : s.SameControl (s.sixelRunM1 c) :=
  ⟨by simp [State.sixelRunM1], by simp [State.sixelRunM1], by simp [State.sixelRunM1]⟩

theorem State.sameControl_sixelDataM2 (s : State) (c : BitVec 6) : s.SameControl (s.sixelDataM2 c) :=
  ⟨by simp [State.sixelDataM2], by simp [State.sixelDataM2], by simp [State.sixelDataM2]⟩

theorem State.sameControl_sixelRunM2 (s : State) (c : BitVec 6) : s.SameControl (s.sixelRunM2 c) :=
  ⟨by simp [State.sixelRunM2], by simp [State.sixelRunM2], by simp [State.sixelRunM2]⟩

theorem State.sameControl_reportWidth (s : State) : s.SameControl s.reportWidth := by
  unfold State.reportWidth
  split <;> exact ⟨rfl, rfl, rfl⟩

theorem State.sameControl_writeElement (s : State) (sp : Space) (k : Nat) (v : Word) :
    s.SameControl (s.writeElement sp k v) := by
  cases sp <;> exact ⟨rfl, rfl, rfl⟩

theorem State.SameControl.trans (h : s.SameControl t) (h' : t.SameControl u) : s.SameControl u :=
  ⟨h'.mode.trans h.mode, h'.abort.trans h.abort, h'.fault.trans h.fault⟩

theorem State.resolvesTo.sameControl (h : s.resolvesTo u) : s.SameControl u := by
  rcases h with ⟨-, -, rfl⟩ | ⟨-, rfl⟩
  · exact ⟨by simp, by simp, by simp⟩
  · exact ⟨rfl, rfl, rfl⟩

/-! The commit and the answers -/

/-- A commit decides the mode (R104) and leaves the abort flag and the fault records. -/
theorem State.commitsTo.control (h : s.commitsTo u) :
    u.commitCommon.mode ≠ .undecided ∧ u.commitCommon.abort = s.abort ∧ u.commitCommon.fault = s.fault := by
  have hc : u.SameControl u.commitCommon := by
    unfold State.commitCommon State.resetLine
    split <;> exact ⟨by simp, by simp, by simp⟩
  rw [hc.mode, hc.abort, hc.fault]
  refine ⟨?_, by rw [h.only], by rw [h.only]⟩
  rcases h.mode_cases with ⟨hm, -⟩ | ⟨hm, -⟩ <;> rw [hm] <;> exact Mode.noConfusion

/-- What an answer does to the three: nothing, or it is non-zero and sets the abort flag (R28, R166). -/
def State.answered (s t : State) (v : Word) : Prop :=
  s.SameControl t ∨ (v ≠ 0 ∧ t.mode = s.mode ∧ t.abort = true ∧ t.fault = s.fault)

theorem ne_zero_of_nonZero {v : Word} (h : nonZero v = true) : v ≠ 0 := of_decide_eq_true h

theorem State.answered_answerMode (s : State) (v : Word) : s.answered (s.answerMode v) v := by
  unfold State.answerMode
  split
  · exact .inr ⟨ne_zero_of_nonZero ‹_›, rfl, rfl, rfl⟩
  · exact .inl ⟨rfl, rfl, rfl⟩

theorem State.answered_answerBandM1 (s : State) (v : Word) : s.answered (s.answerBandM1 v) v := by
  unfold State.answerBandM1
  split
  · exact .inr ⟨ne_zero_of_nonZero ‹_›, rfl, rfl, rfl⟩
  · exact .inl ⟨by simp, by simp, by simp⟩

/-! What an instruction does to the three -/

/-- The ways in which an instruction can change `mode`, `abort` and `fault`. -/
inductive ControlEffect : Instr → State → State → Prop where
  | same {i : Instr} {s t : State} (h : s.SameControl t) : ControlEffect i s t
  | refused (i : Instr) (s : State) (c : FaultCode) : ControlEffect i s (s.refuse c (.known i))
  | init (s : State) (c f p u : Word) : ControlEffect (.init c f p u) s (s.initialise c f p u)
  | commit {i : Instr} {s t : State} (hi : commits i = true) (hs : s.mode = .undecided) (ht : t.mode ≠ .undecided)
      (ha : t.abort = s.abort) (hf : t.fault = s.fault) : ControlEffect i s t
  | abort {s t : State} {v : Word} (hv : v ≠ 0) (hp : s.phase = .waitMode ∨ s.phase = .waitBand)
      (hm : t.mode = s.mode) (ha : t.abort = true) (hf : t.fault = s.fault) : ControlEffect (.answer v) s t

theorem ControlEffect.of_answered {v : Word} (hp : s.phase = .waitMode ∨ s.phase = .waitBand)
    (h : s.answered t v) : ControlEffect (.answer v) s t := by
  rcases h with h | ⟨hv, hm, ha, hf⟩
  · exact .same h
  · exact .abort hv hp hm ha hf

theorem ByteEffect.control {i : Instr} (h : ByteEffect i s t) : ControlEffect i s t := by
  cases h with
  | digit d => exact .same ⟨rfl, rfl, rfl⟩
  | semi => exact .same (s.sameControl_openParam.trans ⟨rfl, rfl, rfl⟩)
  | ignored => exact .same ⟨rfl, rfl, rfl⟩
  | quoteOpens => exact .same ⟨rfl, rfl, rfl⟩
  | quoteSkips => exact .same ⟨rfl, rfl, rfl⟩
  | commit hi hm hu =>
    obtain ⟨ht, ha, hf⟩ := hu.control
    exact .commit hi hm ht ha hf
  | bang _ hu => exact .same (hu.sameControl.trans ⟨rfl, rfl, rfl⟩)
  | hash _ hu => exact .same (hu.sameControl.trans ⟨rfl, rfl, rfl⟩)
  | dollarM1 => exact .same ⟨rfl, rfl, rfl⟩
  | dollarM2 => exact .same ⟨rfl, rfl, rfl⟩
  | dashM1 => exact .same ⟨rfl, rfl, rfl⟩
  | dashM2 => exact .same ⟨rfl, rfl, rfl⟩
  | sixelDataM1 c => exact .same (s.sameControl_sixelDataM1 c)
  | sixelRunM1 c => exact .same (s.sameControl_sixelRunM1 c)
  | @sixelColorM1 _ u c _ _ hu =>
    have hd : u.SameControl { u with parser := .data } := ⟨rfl, rfl, rfl⟩
    exact .same ((hu.sameControl.trans hd).trans (State.sameControl_sixelDataM1 _ c))
  | sixelDataM2 c => exact .same (s.sameControl_sixelDataM2 c)
  | sixelRunM2 c => exact .same (s.sameControl_sixelRunM2 c)
  | @sixelColorM2 _ u c _ _ hu =>
    have hd : u.SameControl { u with parser := .data } := ⟨rfl, rfl, rfl⟩
    exact .same ((hu.sameControl.trans hd).trans (State.sameControl_sixelDataM2 _ c))

theorem HostEffect.control {i : Instr} (h : HostEffect i s t) : ControlEffect i s t := by
  cases h with
  | refused _ _ c => exact .refused i s c
  | init c f p u => exact .init s c f p u
  | decodeAborted => exact .same ⟨rfl, rfl, rfl⟩
  | decodeStarted => exact .same ⟨rfl, rfl, rfl⟩
  | currentWidth => exact .same s.sameControl_reportWidth
  | answerMode v hp => exact .of_answered (.inl hp) (s.answered_answerMode v)
  | answerBandM1 v hp => exact .of_answered (.inr hp) (s.answered_answerBandM1 v)
  | answerBandM2Abort v hp _ hv => exact .abort (ne_zero_of_nonZero hv) (.inr hp) rfl rfl rfl
  | answerBandM2Clear => exact .same ⟨by simp, by simp, by simp⟩
  | hostRead => exact .same ⟨rfl, rfl, rfl⟩
  | hostWrite sp k v => exact .same ((s.sameControl_writeElement sp k.toNat v).trans ⟨rfl, rfl, rfl⟩)

theorem controlEffect_of_exec {i : Instr} (h : exec i s = .next t) : ControlEffect i s t :=
  (effect_of_exec h).elim ByteEffect.control HostEffect.control

/-! The settled statements -/

/-- A refused transaction keeps every record. -/
theorem State.mem_refuse_fault {f : FaultRecord} (hf : f ∈ s.fault) (c : FaultCode) (x : Transaction) :
    f ∈ (s.refuse c x).fault :=
  ((s.refuse_into c x).2 f).2 (.inl hf)

/-- No instruction takes a record out of `fault`. -/
theorem exec_keeps_faults {i : Instr} (h : exec i s = .next t) {f : FaultRecord} (hf : f ∈ s.fault) :
    f ∈ t.fault := by
  cases controlEffect_of_exec h with
  | same h => exact h.fault ▸ hf
  | refused _ _ c => exact State.mem_refuse_fault hf c _
  | init => exact hf
  | commit _ _ _ _ h => exact h ▸ hf
  | abort _ _ _ _ h => exact h ▸ hf

/-- Settles O37: apart from its instruction a step leaves `fault` or adds the record of a bad word. -/
theorem faultsAreNeverCleared : Obligations.FaultsAreNeverCleared := by
  intro s t h f hf
  rcases step_cases h with rfl | ⟨q, rfl | ⟨i, hi⟩ | ⟨w, rfl⟩⟩
  · exact hf
  · exact hf
  · exact exec_keeps_faults (s := { s with port := q }) hi hf
  · exact State.mem_refuse_fault (s := { s with port := q }) hf _ _

/-- Only a non-zero answer to an outstanding callback sets the abort flag. -/
theorem exec_sets_abort {i : Instr} (h : exec i s = .next t) (hs : s.abort = false) (ht : t.abort = true) :
    ∃ v, i = .answer v ∧ v ≠ 0 ∧ (s.phase = .waitMode ∨ s.phase = .waitBand) := by
  have hne : t.abort ≠ s.abort := by rw [hs, ht]; decide
  cases controlEffect_of_exec h with
  | same h => exact absurd h.abort hne
  | refused => exact absurd rfl hne
  | init => exact absurd ht Bool.false_ne_true
  | commit _ _ _ ha => exact absurd ha hne
  | @abort _ _ v hv hp => exact ⟨v, rfl, hv, hp⟩

/-- Only INIT clears the abort flag. -/
theorem exec_clears_abort {i : Instr} (h : exec i s = .next t) (hs : s.abort = true) (ht : t.abort = false) :
    ∃ c f p u, i = .init c f p u := by
  have hne : t.abort ≠ s.abort := by rw [hs, ht]; decide
  cases controlEffect_of_exec h with
  | same h => exact absurd h.abort hne
  | refused => exact absurd rfl hne
  | init _ c f p u => exact ⟨c, f, p, u, rfl⟩
  | commit _ _ _ ha => exact absurd ha hne
  | abort _ _ _ ha => exact absurd (ha.trans hs.symm) hne

/-- While the abort flag is set a DECODE completes at once or is refused. -/
theorem execDecode_of_abort {a e : Word} (hs : s.abort = true) (h : execDecode a e s = .next t) :
    t = { s with out := t.out, fault := t.fault } := by
  cases execDecode_effect h with
  | refused => rfl
  | decodeAborted _ _ hp => simp only [State.complete, State.send, ← hp]
  | decodeStarted _ _ _ _ _ ha => exact absurd (hs.symm.trans ha) (by decide)

/-- Settles O52, from what an instruction does to the abort flag and what a DECODE can do. -/
theorem abortIsSticky : Obligations.AbortIsSticky :=
  ⟨fun _ _ _ => exec_sets_abort, fun _ _ _ => exec_clears_abort, fun _ _ _ _ => execDecode_of_abort⟩

/-- Settles O53, from what an instruction does to the mode. -/
theorem modeChangesOnlyByInitAndCommit : Obligations.ModeChangesOnlyByInitAndCommit := by
  intro i s t h hne
  cases controlEffect_of_exec h with
  | same h => exact absurd h.mode hne
  | refused => exact absurd rfl hne
  | init _ c f p u => exact .inl ⟨⟨c, f, p, u, rfl⟩, rfl⟩
  | commit hi hs ht => exact .inr ⟨hi, hs, ht⟩
  | abort _ _ hm => exact absurd hm hne

end Sys2Proof.Machine
end

section
/-! SUPPORT. Where the model stops by its own choice (log 13, log 14), and the settled statement. -/

namespace Sys2Proof.Machine

variable {s : State}

/-- A commit outside states Data and Attr has no rule (R16, log 13). -/
theorem State.commit_of_excluded (hp : s.parser = .compression ∨ s.parser = .color) :
    s.commit = .fault .noRule := by
  rcases hp with hp | hp <;> simp only [State.commit, hp]

/-- A sixel in state Attr of a committed mode has no rule (R16, log 13). -/
theorem execSixel_of_attr (c : BitVec 6) (hm : s.mode ≠ .undecided) (hp : s.parser = .attr) :
    execSixel c s = .fault .noRule := by
  cases h : s.mode with
  | undecided => exact absurd h hm
  | m1 => simp only [execSixel, h, hp]
  | m2 => simp only [execSixel, h, hp]

/-- A BAND answer before the commit has no rule (R162, log 13). -/
theorem execAnswer_of_undecided (v : Word) (hp : s.phase = .waitBand) (hm : s.mode = .undecided) :
    execAnswer v s = .fault .noRule := by
  simp only [execAnswer, hp, hm]

/-- The clear of an M2 band wider than the row buffers leaves them (log 14). -/
theorem execAnswer_of_tooWide (hp : s.phase = .waitBand) (hm : s.mode = .m2) (hw : s.build.rowCap < s.width) :
    execAnswer 0 s = .fault .noSuchElement := by
  have hz : nonZero 0 = false := rfl
  simp only [execAnswer, hp, hm, State.answerBandM2, hz, Bool.false_eq_true, if_false]
  rw [if_neg (by omega)]

theorem State.paletteOk_eq_false (h : s.paletteLength = 0 ∨ s.build.paletteSize < s.paletteLength) :
    s.paletteOk = false := by
  simp only [State.paletteOk, Bool.and_eq_false_iff, decide_eq_false_iff_not]
  omega

/-- Ending a color introducer with a palette index that is no register stops the machine (log 14). -/
theorem State.resolveThen_of_badPalette (hp : s.parser = .color) (hk : s.paletteOk = false)
    (k : State → Result) : s.resolveThen k = .fault .noSuchElement := by
  rw [State.resolveThen, if_pos hp, hk]; rfl

theorem execSixel_of_badPalette (c : BitVec 6) (hm : s.mode ≠ .undecided) (hp : s.parser = .color)
    (hk : s.paletteOk = false) : execSixel c s = .fault .noSuchElement := by
  cases h : s.mode with
  | undecided => exact absurd h hm
  | m1 => simp only [execSixel, h, hp, State.resolveThen_of_badPalette hp hk]
  | m2 => simp only [execSixel, h, hp, State.resolveThen_of_badPalette hp hk]

/-- Settles O50, one lemma for each excluded combination. -/
theorem excludedStatesStop : Obligations.ExcludedStatesStop := by
  intro i c v s
  refine ⟨fun hi hm hp => ?_, execSixel_of_attr c, execAnswer_of_undecided v, execAnswer_of_tooWide,
    fun hm hp hl hi => ?_⟩
  · rw [exec_of_commits i s hi hm, State.commit_of_excluded hp]
  · have hk := State.paletteOk_eq_false hl
    rcases hi with rfl | rfl | rfl
    · exact (execBang_committed hm).trans (State.resolveThen_of_badPalette hp hk _)
    · exact (execHash_committed hm).trans (State.resolveThen_of_badPalette hp hk _)
    · exact execSixel_of_badPalette c hm hp hk

end Sys2Proof.Machine
end

section
/-! SUPPORT. The row buffers: every paint and clear of the block stays in the payload slots, so that it keeps the
canonical form, forgets no written byte and leaves the guard slots; and the settled statement about the guard slots. -/

namespace Sys2Proof.Machine

/-- `m'` is the array of the row buffers after writes to payload slots of the rows only. -/
structure PayloadPaint (b : Build) (m m' : Mem) : Prop where
  wf     : m.wf = true → m'.wf = true
  below  : m.below (4 * (6 * b.rowStride)) = true → m'.below (4 * (6 * b.rowStride)) = true
  kept   : ∀ x, (m.read? x).isSome = true → (m'.read? x).isSome = true
  guards : ∀ r g j, r < 6 → g < 4 → j < 4 → m'.read? (pixelOffset b r g + j) = m.read? (pixelOffset b r g + j)

theorem PayloadPaint.refl (b : Build) (m : Mem) : PayloadPaint b m m :=
  ⟨id, id, fun _ => id, fun _ _ _ _ _ _ => rfl⟩

theorem PayloadPaint.trans {b : Build} {m m' m'' : Mem} (h : PayloadPaint b m m') (h' : PayloadPaint b m' m'') :
    PayloadPaint b m m'' where
  wf hm := h'.wf (h.wf hm)
  below hm := h'.below (h.below hm)
  kept x hx := h'.kept x (h.kept x hx)
  guards r g j hr hg hj := (h'.guards r g j hr hg hj).trans (h.guards r g j hr hg hj)

/-- A run from slot 4 or above that ends inside the row covers no byte of a guard slot. -/
theorem not_inRun_guard {b : Build} {mask : BitVec 6} {lo n r g j : Nat} (hlo : 4 ≤ lo) (hn : lo + n ≤ b.rowStride)
    (hr : r < 6) (hg : g < 4) (hj : j < 4) : ¬ inRun b mask lo n (pixelOffset b r g + j) := by
  rw [inRun_pixel b mask lo n r g j hr (by omega) hj hn]
  omega

/-- The reads after a run of payload slots, as the kernels' own laws give them, make a payload paint. -/
theorem PayloadPaint.of_run {b : Build} {mask : BitVec 6} {lo n : Nat} {w : Word} {m m' : Mem}
    (hx : ∀ x, (inRun b mask lo n x → m'.read? x = some (w.byte (x % 4))) ∧
      (¬ inRun b mask lo n x → m'.read? x = m.read? x))
    (hwf : m.wf = true → m'.wf = true)
    (hbelow : m.below (4 * (6 * b.rowStride)) = true → m'.below (4 * (6 * b.rowStride)) = true)
    (hlo : 4 ≤ lo) (hn : lo + n ≤ b.rowStride) : PayloadPaint b m m' where
  wf := hwf
  below := hbelow
  kept x h := by
    by_cases hr : inRun b mask lo n x
    · rw [(hx x).1 hr]; rfl
    · rwa [(hx x).2 hr]
  guards r g j hr hg hj := (hx _).2 (not_inRun_guard hlo hn hr hg hj)

/-! The kernels and the clears -/

theorem State.payloadPaint_paintRows (s : State) (c : BitVec 6) {lo n : Nat} (w : Word) (hlo : 4 ≤ lo)
    (hn : lo + n ≤ s.build.rowStride) : PayloadPaint s.build s.rowbuf (s.paintRows c lo n w).rowbuf := by
  obtain ⟨m, hm, hx, hwf, hbelow⟩ := s.paintRows_spec c lo n w
  rw [hm]
  exact .of_run hx hwf (hbelow (.inl hn)) hlo hn

theorem State.payloadPaint_putSingle (s : State) (c : BitVec 6) (w : Word) {col : Nat} (hc : 4 ≤ col) :
    PayloadPaint s.build s.rowbuf (s.putSingle c w col).rowbuf := by
  rw [State.putSingle_eq]
  split
  · exact s.payloadPaint_paintRows c w hc (by rw [Build.rowStride]; omega)
  · exact .refl _ _

/-- A run with no room left in its row paints nothing (R91). -/
theorem State.payloadPaint_paintRows_zero (s : State) (c : BitVec 6) (lo : Nat) (w : Word) :
    PayloadPaint s.build s.rowbuf (s.paintRows c lo 0 w).rowbuf := by
  obtain ⟨m, hm, hx, hwf, hbelow⟩ := s.paintRows_spec c lo 0 w
  have hsame : ∀ x, m.read? x = s.rowbuf.read? x := fun x => (hx x).2 (not_inRun_zero _ _ _ _)
  rw [hm]
  exact ⟨hwf, hbelow (.inr rfl), fun x h => by rwa [hsame x], fun _ _ _ _ _ _ => hsame _⟩

theorem State.payloadPaint_putRun (s : State) (c : BitVec 6) (w : Word) (n : Nat) {col : Nat} (hc : 4 ≤ col) :
    PayloadPaint s.build s.rowbuf (s.putRun c w n col).rowbuf := by
  unfold State.putRun State.runLength
  split
  · exact s.payloadPaint_paintRows c w hc (by rw [Build.rowStride]; omega)
  · exact s.payloadPaint_paintRows_zero c col w

theorem State.payloadPaint_clearUpto (s : State) {limit : Nat} (hl : limit ≤ s.build.maxWidth)
    (hc : 4 ≤ s.clearedWidth) (hr : s.clearedWidth ≤ s.build.rowCap) :
    PayloadPaint s.build s.rowbuf (s.clearUpto limit).rowbuf := by
  obtain ⟨m, hm, hx, hwf, hbelow⟩ := s.clearUpto_spec limit hl
  have h1 := le_clearedAfter s.build s.clearedWidth limit hl
  have h2 : clearedAfter s.build s.clearedWidth limit ≤ s.build.rowStride :=
    clearedAfter_le s.build s.clearedWidth limit hr
  rw [hm]
  exact .of_run hx hwf hbelow hc (by omega)

theorem State.payloadPaint_fillRowRange (s : State) {hi : Nat} (hh : hi ≤ s.build.rowCap) :
    PayloadPaint s.build s.rowbuf (s.fillRowRange 4 hi).rowbuf := by
  have hcap : s.build.rowStride = s.build.maxWidth + 4 := rfl
  have hcap' : s.build.rowCap = s.build.maxWidth + 4 := rfl
  exact s.payloadPaint_paintRows 63 s.fillColor (Nat.le_refl 4) (by omega)

theorem State.payloadPaint_resetLineM1 (s : State) : PayloadPaint s.build s.rowbuf s.resetLineM1.rowbuf := by
  simp only [State.resetLineM1]
  exact s.payloadPaint_fillRowRange (Nat.min_le_right _ _)

theorem State.payloadPaint_resetLineM2 (s : State) (hw : s.width ≤ s.build.rowCap) :
    PayloadPaint s.build s.rowbuf s.resetLineM2.rowbuf :=
  s.payloadPaint_fillRowRange hw

/-! The byte rules and the transactions -/

section
variable (s : State) (c : BitVec 6) (hc : 4 ≤ s.cursor)
include hc

theorem State.payloadPaint_sixelDataM2 : PayloadPaint s.build s.rowbuf (s.sixelDataM2 c).rowbuf :=
  s.payloadPaint_putSingle c s.color hc

theorem State.payloadPaint_sixelRunM2 : PayloadPaint s.build s.rowbuf (s.sixelRunM2 c).rowbuf :=
  s.payloadPaint_putRun c s.color s.repeatCount hc

variable (h4 : 4 ≤ s.clearedWidth) (hr : s.clearedWidth ≤ s.build.rowCap)
include h4 hr

theorem State.payloadPaint_sixelDataM1 : PayloadPaint s.build s.rowbuf (s.sixelDataM1 c).rowbuf := by
  have hp := (s.clearUpto (min (s.cursor + 1) s.build.maxWidth)).payloadPaint_putSingle c s.color hc
  rw [State.clearUpto_build] at hp
  exact (s.payloadPaint_clearUpto (Nat.min_le_right _ _) h4 hr).trans hp

theorem State.payloadPaint_sixelRunM1 : PayloadPaint s.build s.rowbuf (s.sixelRunM1 c).rowbuf := by
  have hp := (s.clearUpto (min (s.cursor + s.repeatCount) s.build.maxWidth)).payloadPaint_putRun c s.color
    s.repeatCount hc
  rw [State.clearUpto_build] at hp
  exact (s.payloadPaint_clearUpto (Nat.min_le_right _ _) h4 hr).trans hp

end

variable {s t u : State}

/-- A commit clears the first band, whose width fits the row buffers (R106, R108). -/
theorem State.commitsTo.payloadPaint (h : s.commitsTo u) :
    PayloadPaint s.build s.rowbuf u.commitCommon.rowbuf := by
  have hb : u.build = s.build := by rw [h.only]
  have hr : u.rowbuf = s.rowbuf := by rw [h.only]
  have hw : u.width ≤ u.build.rowCap := by
    rw [hb]
    rcases h.mode_cases with ⟨-, -, e⟩ | ⟨-, -, -, hle⟩
    · rw [e]; exact Nat.zero_le _
    · exact hle
  rw [← hb, ← hr]
  unfold State.commitCommon State.resetLine
  split
  · exact State.payloadPaint_resetLineM1 { u with parser := .data }.resetParams
  · exact State.payloadPaint_resetLineM2 { u with parser := .data }.resetParams hw

theorem State.resolvesTo.rowbuf_eq (h : s.resolvesTo u) : u.rowbuf = s.rowbuf := by
  rcases h with ⟨-, -, rfl⟩ | ⟨-, rfl⟩
  · exact s.resolveColor_rowbuf
  · rfl

theorem State.resolvesTo.regsOk (h : s.resolvesTo u) (hs : s.RegsOk) : u.RegsOk := by
  rcases h with ⟨-, -, rfl⟩ | ⟨-, rfl⟩
  · rw [s.resolveColor_only]
    exact { hs with }
  · exact hs

theorem State.resolvesTo.build_eq (h : s.resolvesTo u) : u.build = s.build := by
  rcases h with ⟨-, -, rfl⟩ | ⟨-, rfl⟩
  · exact s.resolveColor_build
  · rfl

theorem ByteEffect.payloadPaint {i : Instr} (hs : s.RegsOk) (h : ByteEffect i s t) :
    PayloadPaint s.build s.rowbuf t.rowbuf := by
  obtain ⟨h4, hr⟩ := hs.clearedWidth
  have hc := hs.cursor.1
  cases h with
  | digit d => exact .refl _ _
  | semi =>
    unfold State.openParam
    split <;> exact .refl _ _
  | ignored => exact .refl _ _
  | quoteOpens => exact .refl _ _
  | quoteSkips => exact .refl _ _
  | commit _ _ hu => exact hu.payloadPaint
  | bang _ hu => exact hu.rowbuf_eq ▸ .refl _ _
  | hash _ hu => exact hu.rowbuf_eq ▸ .refl _ _
  | dollarM1 => exact .refl _ _
  | dollarM2 => exact .refl _ _
  | dashM1 => exact .refl _ _
  | dashM2 => exact .refl _ _
  | sixelDataM1 c => exact s.payloadPaint_sixelDataM1 c hc h4 hr
  | sixelRunM1 c => exact s.payloadPaint_sixelRunM1 c hc h4 hr
  | @sixelColorM1 _ u c _ _ hu =>
    have hk := hu.regsOk hs
    rw [← hu.rowbuf_eq, ← hu.build_eq]
    exact State.payloadPaint_sixelDataM1 { u with parser := .data } c hk.cursor.1 hk.clearedWidth.1 hk.clearedWidth.2
  | sixelDataM2 c => exact s.payloadPaint_sixelDataM2 c hc
  | sixelRunM2 c => exact s.payloadPaint_sixelRunM2 c hc
  | @sixelColorM2 _ u c _ _ hu =>
    rw [← hu.rowbuf_eq, ← hu.build_eq]
    exact State.payloadPaint_sixelDataM2 { u with parser := .data } c (hu.regsOk hs).cursor.1

theorem State.payloadPaint_answerBandM1 (s : State) (v : Word) :
    PayloadPaint s.build s.rowbuf (s.answerBandM1 v).rowbuf := by
  unfold State.answerBandM1
  split
  · exact .refl _ _
  · exact s.resume.payloadPaint_resetLineM1

theorem HostEffect.payloadPaint {i : Instr} (hi : ∀ sp k v, i ≠ .hostWrite sp k v) (h : HostEffect i s t) :
    PayloadPaint s.build s.rowbuf t.rowbuf := by
  cases h with
  | refused => exact .refl _ _
  | init => exact .refl _ _
  | decodeAborted => exact .refl _ _
  | decodeStarted => exact .refl _ _
  | currentWidth =>
    unfold State.reportWidth
    split <;> exact .refl _ _
  | answerMode =>
    unfold State.answerMode
    split <;> exact .refl _ _
  | answerBandM1 v => exact s.payloadPaint_answerBandM1 v
  | answerBandM2Abort => exact .refl _ _
  | answerBandM2Clear _ _ _ _ hw => exact s.resume.payloadPaint_resetLineM2 hw
  | hostRead => exact .refl _ _
  | hostWrite sp k v => exact absurd rfl (hi sp k v)

/-- Settles O54: of all instructions only HOST_WRITE writes the row buffers outside their payload slots. -/
theorem blockNeverWritesGuardSlots : Obligations.BlockNeverWritesGuardSlots := by
  intro i s t hs hn h hi r g j hr hg hj
  have hp : PayloadPaint s.build s.rowbuf t.rowbuf :=
    (effect_of_exec h).elim (ByteEffect.payloadPaint (hs.regs hn)) (HostEffect.payloadPaint hi)
  simp only [State.byteAt, State.mem, hp.guards r g j hr hg hj]

end Sys2Proof.Machine
end

section
/-! SUPPORT. The step keeps the invariant (R42): the state in which a byte is processed, what each operation of a byte
rule keeps of it, what each transaction keeps of the invariant, and the settled statement. -/

namespace Sys2Proof.Machine

variable {s u : State}

/-! Written slots and arrays -/

/-- A byte that was written stays written. -/
theorem Mem.isSome_write (m : Mem) (a : Nat) (bs : List Byte) {x : Nat} (h : (m.read? x).isSome = true) :
    ((m.write a bs).read? x).isSome = true := by
  rw [Mem.read?_write]
  split
  · simp; omega
  · exact h

/-- No payload slot lies below slot 4. -/
theorem State.rowsWritten_four (s : State) : s.rowsWritten 4 := fun _ _ _ _ h4 hlt _ => absurd hlt (by omega)

/-- Slots stay written where written bytes stay written. -/
theorem State.rowsWritten.of_kept {m : Mem} {hi : Nat} (h : s.rowsWritten hi)
    (hk : ∀ x, (s.rowbuf.read? x).isSome = true → (m.read? x).isSome = true) :
    ({ s with rowbuf := m } : State).rowsWritten hi :=
  fun r i j hr h4 hlt hj => hk _ (h r i j hr h4 hlt hj)

/-- Filling the slots from a frontier up to a new one in all rows moves the frontier. -/
theorem State.rowsWritten.extend {m : Mem} {lo hi : Nat} (h : s.rowsWritten lo)
    (hk : ∀ x, (s.rowbuf.read? x).isSome = true → (m.read? x).isSome = true)
    (hf : ∀ x, inRun s.build 63 lo (hi - lo) x → (m.read? x).isSome = true) :
    ({ s with rowbuf := m } : State).rowsWritten hi := by
  intro r i j hr h4 hlt hj
  by_cases hi : i < lo
  · exact hk _ (h r i j hr h4 hi hj)
  · exact hf _ (inRun_all s.build lo _ r i j hr (by omega) (by omega) hj)

theorem State.ArraysOk.withRowbuf {m : Mem} (h : s.ArraysOk) (hp : PayloadPaint s.build s.rowbuf m) :
    ({ s with rowbuf := m } : State).ArraysOk :=
  { h with rowbufWf := hp.wf h.rowbufWf, rowbufBelow := hp.below h.rowbufBelow }

theorem State.RegsOk.withRowbuf {m : Mem} (h : s.RegsOk)
    (hk : ∀ x, (s.rowbuf.read? x).isSome = true → (m.read? x).isSome = true) :
    ({ s with rowbuf := m } : State).RegsOk :=
  { h with
    writtenM1 := fun hm => (h.writtenM1 hm).of_kept hk
    writtenM2 := fun hm => (h.writtenM2 hm).of_kept hk }

/-- A write of one element inside its space keeps the arrays. -/
theorem State.ArraysOk.writeElement {sp : Space} {k : Nat} (h : s.ArraysOk) (hk : k < s.build.count sp) (v : Word) :
    (s.writeElement sp k v).ArraysOk := by
  cases sp with
  | inbuf =>
    exact { h with
      inbufWf := Mem.wf_write _ _ _ h.inbufWf
      inbufBelow := Mem.below_write _ _ _ _ h.inbufBelow (.inl hk) }
  | palette =>
    have hlt : k < s.build.paletteSize := hk
    have hin : 4 * k + v.bytes.length ≤ 4 * s.build.paletteSize := by rw [Word.bytes_length]; omega
    exact { h with
      paletteWf := Mem.wf_write _ _ _ h.paletteWf
      paletteBelow := Mem.below_write _ _ _ _ h.paletteBelow (.inl hin) }
  | rowbuf =>
    have hlt : k < 6 * s.build.rowStride := hk
    have hin : 4 * k + v.bytes.length ≤ 4 * (6 * s.build.rowStride) := by rw [Word.bytes_length]; omega
    exact { h with
      rowbufWf := Mem.wf_write _ _ _ h.rowbufWf
      rowbufBelow := Mem.below_write _ _ _ _ h.rowbufBelow (.inl hin) }

/-! The state in which a byte is processed -/

/-- The invariant in RUN with a byte at `pos` to process. -/
structure State.AtByte (s : State) : Prop where
  build  : s.build.legal
  params : s.params.length = s.build.paramSize
  arrays : s.ArraysOk
  faults : s.fault.Nodup
  inited : s.inited = true
  phase  : s.phase = .run
  more   : s.pos < s.endPos
  regs   : s.RegsOk

theorem State.AtByte.notIdle (h : s.AtByte) : s.phase ≠ .idle := by
  rw [h.phase]; exact Phase.noConfusion

theorem State.Inv.inited_of_busy (h : s.Inv) (hp : s.phase ≠ .idle) : s.inited = true := by
  cases hn : s.inited with
  | true => rfl
  | false => exact absurd (h.notReady hn) hp

theorem State.Inv.atByte (h : s.Inv) (hp : s.phase = .run) (hne : s.pos ≠ s.endPos) : s.AtByte := by
  have hb : s.phase ≠ .idle := by rw [hp]; exact Phase.noConfusion
  have hi := h.inited_of_busy hb
  exact { h with inited := hi, phase := hp, regs := h.regs hi, more := Nat.lt_of_le_of_ne ((h.regs hi).range hb).1 hne }

/-- The byte is done: the next one, or the end (R151). -/
theorem State.AtByte.advance (h : s.AtByte) : s.advance.Inv where
  build := h.build
  params := h.params
  arrays := { h.arrays with }
  faults := h.faults
  notReady hn := absurd (hn.symm.trans h.inited) Bool.false_ne_true
  regs _ := { h.regs with
    callback := fun hp => by rw [State.advance_phase, h.phase] at hp; simp at hp
    range := fun _ => ⟨h.more, (h.regs.range h.notIdle).2⟩ }

/-- The byte waits for the host: a callback of a committed mode (R153, R164). -/
theorem State.AtByte.raiseCallback (h : s.AtByte) (hm : s.mode ≠ .undecided) (kind : CallbackKind) (arg : Word) :
    (s.raiseCallback kind arg).Inv where
  build := h.build
  params := h.params
  arrays := { h.arrays with }
  faults := h.faults
  notReady hn := absurd (hn.symm.trans h.inited) Bool.false_ne_true
  regs _ := { h.regs with
    callback := fun _ => ⟨hm, h.more⟩
    inFlight := fun _ => h.regs.inFlight h.notIdle
    range := fun _ => h.regs.range h.notIdle }

/-! The operations of a byte rule -/

/-- Another parser state that R16 admits in the mode. -/
theorem State.AtByte.withParser (h : s.AtByte) (p : ParserState) (hu : s.mode = .undecided → p = .data ∨ p = .attr)
    (hc : s.mode ≠ .undecided → p ≠ .attr) : ({ s with parser := p } : State).AtByte :=
  { h with arrays := { h.arrays with }, regs := { h.regs with preamble := hu, committed := hc } }

theorem State.AtByte.withParser_data (h : s.AtByte) : ({ s with parser := .data } : State).AtByte :=
  h.withParser .data (fun _ => .inl rfl) fun _ => ParserState.noConfusion

theorem State.AtByte.setParam (h : s.AtByte) (i : Nat) (v : Word) : (s.setParam i v).AtByte :=
  { h with
    params := (List.length_set ..).trans h.params
    arrays := { h.arrays with }
    regs := { h.regs with } }

theorem State.AtByte.withPLength (h : s.AtByte) {n : Nat} (hn : 1 ≤ n ∧ n ≤ s.build.paramSize) :
    ({ s with pLength := n } : State).AtByte :=
  { h with arrays := { h.arrays with }, regs := { h.regs with pLength := hn } }

theorem State.AtByte.resetParams (h : s.AtByte) : s.resetParams.AtByte := by
  obtain ⟨-, -, hp, -⟩ := h.build
  exact (h.setParam 0 0).withPLength ⟨Nat.le_refl 1, by rw [State.setParam_build]; omega⟩

theorem State.AtByte.openParam (h : s.AtByte) : s.openParam.AtByte := by
  unfold State.openParam
  split
  · next hlt => exact (h.setParam s.pLength 0).withPLength ⟨by omega, hlt⟩
  · exact h

theorem State.AtByte.openList (h : s.AtByte) (p : ParserState) (hu : s.mode = .undecided → p = .data ∨ p = .attr)
    (hc : s.mode ≠ .undecided → p ≠ .attr) : (s.openList p).Inv :=
  (h.resetParams.withParser p hu hc).advance

/-- Ending a color introducer writes at most a palette register (R82, R86). -/
theorem State.resolvesTo.atByte (hu : s.resolvesTo u) (h : s.AtByte) : u.AtByte := by
  have hr := hu.regsOk h.regs
  rcases hu with ⟨-, hk, rfl⟩ | ⟨-, rfl⟩
  · have hlt := s.paletteIndex_lt hk
    have hin : 4 * s.paletteIndex + s.assignedColor.bytes.length ≤ 4 * s.build.paletteSize := by
      rw [Word.bytes_length]; omega
    rcases s.resolveColor_cases with ⟨-, e⟩ | ⟨-, -, e⟩ | ⟨-, -, e⟩ <;> rw [e] at hr ⊢
    · exact { h with arrays := { h.arrays with }, regs := hr }
    · exact { h with
        regs := hr
        arrays := { h.arrays with
          paletteWf := Mem.wf_write _ _ _ h.arrays.paletteWf
          paletteBelow := Mem.below_write _ _ _ _ h.arrays.paletteBelow (.inl hin) } }
    · exact h
  · exact h

theorem State.AtByte.withRowbuf {m : Mem} (h : s.AtByte) (hp : PayloadPaint s.build s.rowbuf m) :
    ({ s with rowbuf := m } : State).AtByte :=
  { h with arrays := h.arrays.withRowbuf hp, regs := h.regs.withRowbuf hp.kept }

theorem State.AtByte.putSingle (h : s.AtByte) (c : BitVec 6) (w : Word) {col : Nat} (hc : 4 ≤ col) :
    (s.putSingle c w col).AtByte := by
  rw [s.putSingle_only]
  exact h.withRowbuf (s.payloadPaint_putSingle c w hc)

theorem State.AtByte.putRun (h : s.AtByte) (c : BitVec 6) (w : Word) (n : Nat) {col : Nat} (hc : 4 ≤ col) :
    (s.putRun c w n col).AtByte := by
  rw [s.putRun_only]
  exact h.withRowbuf (s.payloadPaint_putRun c w n hc)

/-- A cursor advance; in M1 the frontier must have gone ahead of it (R123). -/
theorem State.AtByte.advanceCursor (h : s.AtByte) (n : Nat) (hm : s.mode ≠ .undecided)
    (hf : s.mode = .m1 → min (s.cursor + n) s.build.maxWidth ≤ s.clearedWidth) : (s.advanceCursor n).AtByte := by
  obtain ⟨⟨-, hw⟩, -⟩ := h.build
  have h4 := h.regs.cursor.1
  exact { h with
    arrays := { h.arrays with }
    regs := { h.regs with
      cursor := ⟨by rw [State.advanceCursor_cursor]; omega, Nat.min_le_right _ _⟩
      startCursor := fun hs => absurd hs hm
      frontier := fun hs => ⟨hf hs, (h.regs.frontier hs).2⟩ } }

theorem State.RegsOk.cursorReset (h : s.RegsOk) (hb : s.build.legal) : ({ s with cursor := 4 } : State).RegsOk := by
  obtain ⟨⟨-, hw⟩, -⟩ := hb
  exact { h with
    cursor := ⟨Nat.le_refl 4, by simp only; omega⟩
    startCursor := fun _ => rfl
    frontier := fun hm => ⟨h.clearedWidth.1, (h.frontier hm).2⟩ }

theorem State.AtByte.cursorReset (h : s.AtByte) : ({ s with cursor := 4 } : State).AtByte :=
  { h with arrays := { h.arrays with }, regs := h.regs.cursorReset h.build }

theorem State.RegsOk.updateRealWidth (h : s.RegsOk) (hb : s.build.legal) (hm : s.mode = .m1) :
    s.updateRealWidth.RegsOk := by
  obtain ⟨⟨-, hw⟩, -⟩ := hb
  obtain ⟨hc, hr⟩ := h.frontier hm
  have h4 := h.realWidth.1
  exact { h with
    realWidth := ⟨by rw [State.updateRealWidth_realWidth]; omega, Nat.min_le_right _ _⟩
    realUnused := fun hn => absurd hm hn
    frontier := fun _ => ⟨hc, (by omega : min (max s.realWidth s.cursor) s.build.maxWidth ≤ s.clearedWidth)⟩ }

theorem State.AtByte.updateRealWidth (h : s.AtByte) (hm : s.mode = .m1) : s.updateRealWidth.AtByte :=
  { h with arrays := { h.arrays with }, regs := h.regs.updateRealWidth h.build hm }

/-- The frontier moves in steps of 128 and ends at ROWCAP, which is 4 past one (R5, R141). -/
theorem clearedAfter_step_mod {b : Build} {c limit : Nat} (hb : b.maxWidth % 128 = 0) (hc : c % 128 = 4) :
    clearedAfter b c limit % 128 = 4 := by
  unfold clearedAfter Build.rowCap
  split <;> omega

/-- The clear on demand moves the frontier over slots it has written (R123, R141). -/
theorem State.AtByte.clearUpto (h : s.AtByte) (hm : s.mode = .m1) {limit : Nat} (hl : limit ≤ s.build.maxWidth) :
    (s.clearUpto limit).AtByte ∧ limit ≤ (s.clearUpto limit).clearedWidth := by
  obtain ⟨h4, hr⟩ := h.regs.clearedWidth
  obtain ⟨hc, hw⟩ := h.regs.frontier hm
  have hle := le_clearedAfter s.build s.clearedWidth limit hl
  have hp := s.payloadPaint_clearUpto hl h4 hr
  obtain ⟨m, e, hx, -, -⟩ := s.clearUpto_spec limit hl
  rw [e] at hp ⊢
  have hwritten := (h.regs.writtenM1 hm).extend hp.kept fun x hin => by rw [(hx x).1 hin]; rfl
  refine ⟨{ h with arrays := { h.arrays.withRowbuf hp with }, regs := { h.regs.withRowbuf hp.kept with
    clearedWidth := ⟨Nat.le_trans h4 hle, clearedAfter_le _ _ _ hr⟩
    clearedStep := clearedAfter_step_mod h.build.1.1 h.regs.clearedStep
    frontier := fun _ => ⟨Nat.le_trans hc hle, Nat.le_trans hw hle⟩
    writtenM1 := fun _ => hwritten } }, clearedAfter_ge _ _ _ hl⟩

/-! SIXEL -/

theorem ne_undecided_of_m1 (hm : s.mode = .m1) : s.mode ≠ .undecided := by rw [hm]; exact Mode.noConfusion

theorem ne_undecided_of_m2 (hm : s.mode = .m2) : s.mode ≠ .undecided := by rw [hm]; exact Mode.noConfusion

theorem ne_m1_of_m2 (hm : s.mode = .m2) : s.mode ≠ .m1 := by rw [hm]; exact Mode.noConfusion

theorem State.AtByte.sixelDataM1 (h : s.AtByte) (hm : s.mode = .m1) (c : BitVec 6) : (s.sixelDataM1 c).Inv := by
  obtain ⟨hclear, hreach⟩ := h.clearUpto hm (Nat.min_le_right (s.cursor + 1) _)
  refine ((hclear.putSingle c s.color h.regs.cursor.1).advanceCursor 1 ?_ fun _ => ?_).advance
  · simpa using ne_undecided_of_m1 hm
  · simpa using hreach

theorem State.AtByte.sixelRunM1 (h : s.AtByte) (hm : s.mode = .m1) (c : BitVec 6) : (s.sixelRunM1 c).Inv := by
  obtain ⟨hclear, hreach⟩ := h.clearUpto hm (Nat.min_le_right (s.cursor + s.repeatCount) _)
  refine ((hclear.putRun c s.color s.repeatCount h.regs.cursor.1).advanceCursor s.repeatCount ?_
    fun _ => ?_).withParser_data.advance
  · simpa using ne_undecided_of_m1 hm
  · simpa using hreach

theorem State.AtByte.sixelDataM2 (h : s.AtByte) (hm : s.mode = .m2) (c : BitVec 6) : (s.sixelDataM2 c).Inv := by
  refine ((h.putSingle c s.color h.regs.cursor.1).advanceCursor 1 ?_ fun h1 => ?_).advance
  · simpa using ne_undecided_of_m2 hm
  · exact absurd (by simpa using h1) (ne_m1_of_m2 hm)

theorem State.AtByte.sixelRunM2 (h : s.AtByte) (hm : s.mode = .m2) (c : BitVec 6) : (s.sixelRunM2 c).Inv := by
  refine ((h.putRun c s.color s.repeatCount h.regs.cursor.1).advanceCursor s.repeatCount ?_
    fun h1 => ?_).withParser_data.advance
  · simpa using ne_undecided_of_m2 hm
  · exact absurd (by simpa using h1) (ne_m1_of_m2 hm)

/-! The first clear of a band -/

/-- The start of a band in M1: the first chunk is written and the frontier is past it (R139). -/
theorem State.AtByte.startBandM1 {m : Mem} (h : s.AtByte) (hc : s.cursor = 4)
    (hw : s.realWidth = 4) (hp : PayloadPaint s.build s.rowbuf m)
    (hf : ∀ x, inRun s.build 63 4 128 x → (m.read? x).isSome = true) :
    ({ s with rowbuf := m, clearedWidth := 132 } : State).AtByte := by
  obtain ⟨⟨-, hb⟩, -⟩ := h.build
  have hwritten : ({ s with rowbuf := m } : State).rowsWritten 132 := s.rowsWritten_four.extend hp.kept hf
  exact { h with
    arrays := { h.arrays.withRowbuf hp with }
    regs := { h.regs.withRowbuf hp.kept with
      clearedWidth := ⟨(by decide : 4 ≤ 132), by simp only [Build.rowCap]; omega⟩
      clearedStep := (by decide : 132 % 128 = 4)
      frontier := fun _ => ⟨(by omega : s.cursor ≤ 132), (by omega : s.realWidth ≤ 132)⟩
      writtenM1 := fun _ => hwritten } }

/-- The start of the first band in M2: every slot of its width is written (R140). -/
theorem State.AtByte.startBandM2 {m : Mem} {w : Nat} (h : s.AtByte) (hm : s.mode = .m2)
    (hw : 4 ≤ w ∧ w ≤ s.build.rowCap) (hp : PayloadPaint s.build s.rowbuf m)
    (hf : ∀ x, inRun s.build 63 4 (w - 4) x → (m.read? x).isSome = true) :
    ({ s with rowbuf := m, width := w } : State).AtByte := by
  have hwritten : ({ s with rowbuf := m } : State).rowsWritten w := s.rowsWritten_four.extend hp.kept hf
  exact { h with
    arrays := { h.arrays.withRowbuf hp with }
    regs := { h.regs.withRowbuf hp.kept with
      widthM2 := fun _ => hw
      widthElse := fun hn => absurd hm hn
      writtenM2 := fun _ => hwritten } }

@[simp] theorem State.resetLine_mode (s : State) : s.resetLine.mode = s.mode := by
  unfold State.resetLine
  split
  · exact s.resetLineM1_mode
  · exact s.resetLineM2_mode

/-- `reset_line_m2` writes the payload of a band whose width fits the row buffers (R140). -/
theorem State.resetLineM2_spec (s : State) (hw : s.width ≤ s.build.rowCap) :
    ∃ m, s.resetLineM2 = { s with rowbuf := m } ∧ PayloadPaint s.build s.rowbuf m ∧
      ∀ x, inRun s.build 63 4 (s.width - 4) x → (m.read? x).isSome = true := by
  have hp := s.payloadPaint_resetLineM2 hw
  obtain ⟨m, e, hx, -, -⟩ := s.paintRows_spec 63 4 (s.width - 4) s.fillColor
  have e' : s.resetLineM2 = { s with rowbuf := m } := e
  rw [e'] at hp
  exact ⟨m, e', hp, fun x hin => by rw [(hx x).1 hin]; rfl⟩

/-- `reset_line_m1` of a band in M1 writes the first chunk (R139). -/
theorem State.resetLineM1_first (s : State) (hw : s.width = 0) (hl : 128 ≤ s.build.maxWidth) :
    ∃ m, s.resetLineM1 = { s with rowbuf := m, clearedWidth := 132 } ∧ PayloadPaint s.build s.rowbuf m ∧
      ∀ x, inRun s.build 63 4 128 x → (m.read? x).isSome = true := by
  have hp := s.payloadPaint_resetLineM1
  obtain ⟨m, e, hx, -, -⟩ := s.resetLineM1_spec hw hl
  rw [e] at hp
  exact ⟨m, e, hp, fun x hin => by rw [(hx x).1 hin]; rfl⟩

/-- The first clear of the commit in M1, whatever the frontier was before. -/
theorem State.resetLine_atByte_m1 (h : ({ s with clearedWidth := 4 } : State).AtByte) (hm : s.mode = .m1)
    (hc : s.cursor = 4) (hw : s.realWidth = 4) : s.resetLine.AtByte := by
  have hwidth : s.width = 0 := h.regs.widthElse (by simp only [hm]; exact Mode.noConfusion)
  obtain ⟨m, e, hp, hf⟩ := s.resetLineM1_first hwidth h.build.1.2
  rw [State.resetLine, if_pos hm, e]
  exact h.startBandM1 hc hw hp hf

/-- The first clear of the commit in M2. -/
theorem State.resetLine_atByte_m2 (h : ({ s with width := 4 } : State).AtByte) (hm : s.mode = .m2)
    (hw : 4 ≤ s.width ∧ s.width ≤ s.build.rowCap) : s.resetLine.AtByte := by
  obtain ⟨m, e, hp, hf⟩ := s.resetLineM2_spec hw.2
  rw [State.resetLine, if_neg (ne_m1_of_m2 hm), e]
  exact h.startBandM2 hm hw hp hf

/-! The commit -/

section
variable (h : s.AtByte) (hs : s.mode = .undecided) (hu : s.commitsTo u)
include h hs hu

/-- In mode Undecided nothing has been painted (R34, R99). -/
theorem State.commitsTo.start : u.cursor = 4 ∧ u.realWidth = 4 := by
  rw [hu.only]
  exact ⟨h.regs.startCursor hs, h.regs.realUnused (by rw [hs]; exact Mode.noConfusion)⟩

/-- The registers of a commit to M1, with nothing cleared yet. -/
theorem State.commitsTo.atByte_m1 (hm : u.mode = .m1) (hl : u.level ≠ .undecided) (hw : u.width = 0) :
    ({ u with parser := .data, clearedWidth := 4 } : State).AtByte := by
  obtain ⟨hc, hr⟩ := hu.start h hs
  have hm2 : u.mode ≠ .m2 := by rw [hm]; exact Mode.noConfusion
  have hmu := ne_undecided_of_m1 hm
  rw [hu.only] at hc hr ⊢
  exact { h with
    arrays := { h.arrays with }
    regs := { h.regs with
      clearedWidth := ⟨Nat.le_refl 4, Nat.le_add_left 4 _⟩
      clearedStep := (by decide : 4 % 128 = 4)
      widthM2 := fun e => absurd e hm2
      widthElse := fun _ => hw
      preamble := fun e => absurd e hmu
      committed := fun _ => ParserState.noConfusion
      levels := ⟨fun e => absurd e hl, fun e => absurd e hmu⟩
      levelM2 := fun e => absurd e hm2
      startCursor := fun _ => hc
      realUnused := fun _ => hr
      frontier := fun _ => ⟨Nat.le_of_eq hc, Nat.le_of_eq hr⟩
      writtenM1 := fun _ => State.rowsWritten_four _
      writtenM2 := fun e => absurd e hm2
      callback := fun _ => ⟨hmu, h.more⟩ } }

/-- The registers of a commit to M2, with no width of its band yet. -/
theorem State.commitsTo.atByte_m2 (hm : u.mode = .m2) (hl : u.level = .l2) :
    ({ u with parser := .data, width := 4 } : State).AtByte := by
  obtain ⟨hc, hr⟩ := hu.start h hs
  have hm1 := ne_m1_of_m2 hm
  have hmu := ne_undecided_of_m2 hm
  rw [hu.only] at hc hr ⊢
  exact { h with
    arrays := { h.arrays with }
    regs := { h.regs with
      widthM2 := fun _ => ⟨Nat.le_refl 4, Nat.le_add_left 4 _⟩
      widthElse := fun e => absurd hm e
      preamble := fun e => absurd e hmu
      committed := fun _ => ParserState.noConfusion
      levels := ⟨fun e => absurd (hl.symm.trans e) Level.noConfusion, fun e => absurd e hmu⟩
      levelM2 := fun _ => hl
      startCursor := fun _ => hc
      realUnused := fun _ => hr
      frontier := fun e => absurd e hm1
      writtenM1 := fun e => absurd e hm1
      writtenM2 := fun _ => State.rowsWritten_four _
      callback := fun _ => ⟨hmu, h.more⟩ } }

/-- A commit clears the first band and waits for the MODE answer (R108). -/
theorem State.commitsTo.inv : u.commitCommon.Inv := by
  obtain ⟨hc, hr⟩ := hu.start h hs
  rcases hu.mode_cases with ⟨hm, hl, hw⟩ | ⟨hm, hl, hw⟩
  · have hline : ({ u with parser := .data } : State).resetParams.resetLine.AtByte :=
      State.resetLine_atByte_m1 (hu.atByte_m1 h hs hm hl hw).resetParams hm hc hr
    exact hline.raiseCallback (by rw [State.resetLine_mode]; exact ne_undecided_of_m1 hm) _ _
  · have hb : u.build = s.build := by rw [hu.only]
    have hline : ({ u with parser := .data } : State).resetParams.resetLine.AtByte :=
      State.resetLine_atByte_m2 (hu.atByte_m2 h hs hm hl).resetParams hm ⟨hw.1, hb ▸ hw.2⟩
    exact hline.raiseCallback (by rw [State.resetLine_mode]; exact ne_undecided_of_m2 hm) _ _

end

/-! The bytes of the stream -/

/-- The state of a committed mode after a color introducer was ended, back in state Data (R84, R116). -/
theorem State.resolvesTo.data (hu : s.resolvesTo u) (h : s.AtByte) {m : Mode} (hm : s.mode = m) :
    ({ u with parser := .data } : State).AtByte ∧ ({ u with parser := .data } : State).mode = m :=
  ⟨(hu.atByte h).withParser_data, hu.sameControl.mode.trans hm⟩

/-- A new list in a committed mode, after a color introducer was ended (R117, R118). -/
theorem State.resolvesTo.openList (hu : s.resolvesTo u) (h : s.AtByte) (hm : s.mode ≠ .undecided)
    {p : ParserState} (hp : p ≠ .attr) : (u.openList p).Inv :=
  (hu.atByte h).openList p (fun e => absurd (hu.sameControl.mode.symm.trans e) hm) fun _ => hp

/-- Every byte keeps the invariant. -/
theorem ByteEffect.inv {i : Instr} {t : State} (h : s.AtByte) (he : ByteEffect i s t) : t.Inv := by
  cases he with
  | digit d => exact (h.setParam _ _).advance
  | semi => exact h.openParam.advance
  | ignored => exact h.advance
  | quoteOpens hm => exact h.openList .attr (fun _ => .inr rfl) fun e => absurd hm e
  | quoteSkips => exact h.advance
  | commit _ hm hu => exact hu.inv h hm
  | bang hm hu => exact hu.openList h hm ParserState.noConfusion
  | hash hm hu => exact hu.openList h hm ParserState.noConfusion
  | dollarM1 hm => exact (h.updateRealWidth hm).cursorReset.advance
  | dollarM2 => exact h.cursorReset.advance
  | dashM1 hm => exact (h.updateRealWidth hm).cursorReset.raiseCallback (ne_undecided_of_m1 hm) _ _
  | dashM2 hm => exact h.raiseCallback (ne_undecided_of_m2 hm) _ _
  | sixelDataM1 c hm => exact h.sixelDataM1 hm c
  | sixelRunM1 c hm => exact h.sixelRunM1 hm c
  | sixelColorM1 c hm _ hu =>
    obtain ⟨hd, hdm⟩ := hu.data h hm
    exact hd.sixelDataM1 hdm c
  | sixelDataM2 c hm => exact h.sixelDataM2 hm c
  | sixelRunM2 c hm => exact h.sixelRunM2 hm c
  | sixelColorM2 c hm _ hu =>
    obtain ⟨hd, hdm⟩ := hu.data h hm
    exact hd.sixelDataM2 hdm c

/-! The transactions of the host -/

theorem State.Inv.refuse (h : s.Inv) (c : FaultCode) (x : Transaction) : (s.refuse c x).Inv :=
  h.of_same rfl (s.refuse_nodup c x h.faults)

theorem State.Inv.send (h : s.Inv) (x : Signal) : (s.send x).Inv := h.of_same rfl h.faults

/-- The end of a DECODE, with any value of the abort flag (R151, R166). -/
theorem State.Inv.finish (h : s.Inv) (a : Bool) : ({ s with phase := .idle, abort := a } : State).Inv :=
  { h with
    arrays := { h.arrays with }
    notReady := fun _ => rfl
    regs := fun hi => { h.regs hi with
      callback := fun hp => hp.elim Phase.noConfusion Phase.noConfusion
      inFlight := fun hp => absurd rfl hp
      range := fun hp => absurd rfl hp } }

theorem State.Inv.complete (h : s.Inv) : s.complete.Inv := (h.finish s.abort).of_same rfl h.faults

/-- The end of a DECODE after a non-zero answer (R166). -/
theorem State.Inv.abortDecode (h : s.Inv) : ({ s.resume with abort := true } : State).complete.Inv :=
  (h.finish true).of_same rfl h.faults

theorem State.Inv.cursorReset (h : s.Inv) : ({ s with cursor := 4 } : State).Inv :=
  { h with arrays := { h.arrays with }, regs := fun hi => (h.regs hi).cursorReset h.build }

theorem State.RegsOk.realWidthReset (h : s.RegsOk) (hb : s.build.legal) :
    ({ s with realWidth := 4 } : State).RegsOk := by
  obtain ⟨⟨-, hw⟩, -⟩ := hb
  exact { h with
    realWidth := ⟨Nat.le_refl 4, by simp only; omega⟩
    realUnused := fun _ => rfl
    frontier := fun hm => ⟨(h.frontier hm).1, h.clearedWidth.1⟩ }

theorem State.Inv.realWidthReset (h : s.Inv) : ({ s with realWidth := 4 } : State).Inv :=
  { h with arrays := { h.arrays with }, regs := fun hi => (h.regs hi).realWidthReset h.build }

/-- INIT gives every register a value in its range (R148). -/
theorem State.Inv.initialise (h : s.Inv) (hp : s.phase = .idle) (c f p u : Word) : (s.initialise c f p u).Inv := by
  obtain ⟨⟨-, hw⟩, ⟨hp1, -⟩, hps, -⟩ := h.build
  exact { h with
    params := (List.length_set ..).trans h.params
    arrays := { h.arrays with }
    notReady := fun _ => hp
    regs := fun _ =>
      { pLength := ⟨Nat.le_refl 1, Nat.le_trans (by decide : 1 ≤ 5) hps⟩
        cursor := ⟨Nat.le_refl 4, Nat.le_trans (by decide : 4 ≤ 128) hw⟩
        realWidth := ⟨Nat.le_refl 4, Nat.le_trans (by decide : 4 ≤ 128) hw⟩
        clearedWidth := ⟨Nat.le_refl 4, Nat.le_add_left 4 _⟩
        clearedStep := (by decide : 4 % 128 = 4)
        widthM2 := Mode.noConfusion
        widthElse := fun _ => rfl
        paletteLength := ⟨Nat.le_min.2 ⟨Nat.le_max_right _ _, hp1⟩, Nat.min_le_right _ _⟩
        preamble := fun _ => .inl rfl
        committed := fun _ => ParserState.noConfusion
        levels := ⟨fun _ => rfl, fun _ => rfl⟩
        levelM2 := Mode.noConfusion
        startCursor := fun _ => rfl
        realUnused := fun _ => rfl
        frontier := Mode.noConfusion
        writtenM1 := Mode.noConfusion
        writtenM2 := Mode.noConfusion
        callback := fun e => by simp [State.initialise, hp] at e
        inFlight := fun _ => rfl
        range := fun e => absurd hp e } }

/-- The range of an admitted DECODE, in positions (R150). -/
theorem State.rangeOk_bounds {a e : Word} (h : s.rangeOk a e = true) :
    a.toNat ≤ e.toNat ∧ e.toNat < s.build.chunkSize := by
  simp only [State.rangeOk, Bool.and_eq_true, decide_eq_true_eq] at h
  have ha := BitVec.toInt_eq_toNat_cond a
  have he := BitVec.toInt_eq_toNat_cond e
  split at ha <;> split at he <;> omega

theorem State.Inv.startDecode {a e : Word} (h : s.Inv) (hi : s.inited = true) (hr : s.rangeOk a e = true)
    (ha : s.abort = false) : (s.startDecode a e).Inv := by
  obtain ⟨hle, hlt⟩ := State.rangeOk_bounds hr
  exact { h with
    arrays := { h.arrays with
      inbufWf := Mem.wf_write _ _ _ h.arrays.inbufWf
      inbufBelow := Mem.below_write _ _ _ _ h.arrays.inbufBelow (.inl hlt) }
    notReady := fun hn => absurd (hn.symm.trans hi) Bool.false_ne_true
    regs := fun _ => { h.regs hi with
      callback := fun hw => hw.elim Phase.noConfusion Phase.noConfusion
      inFlight := fun _ => ha
      range := fun _ => ⟨hle, hlt⟩ } }

theorem State.Inv.reportWidth (h : s.Inv) (hi : s.inited = true) : s.reportWidth.Inv := by
  unfold State.reportWidth
  split
  · next hm =>
    have hr : s.updateRealWidth.Inv :=
      { h with arrays := { h.arrays with }, regs := fun _ => (h.regs hi).updateRealWidth h.build hm }
    exact hr.send _
  · exact h.send _
  · exact h.send _

/-- After an answer the byte rule that raised the callback goes on (R153, R165). -/
theorem State.Inv.resume (h : s.Inv) (hp : s.phase = .waitMode ∨ s.phase = .waitBand) : s.resume.AtByte := by
  have hb : s.phase ≠ .idle := by rcases hp with hp | hp <;> rw [hp] <;> exact Phase.noConfusion
  have hi := h.inited_of_busy hb
  have hr := h.regs hi
  exact { h with
    arrays := { h.arrays with }
    inited := hi
    phase := rfl
    more := (hr.callback hp).2
    regs := { hr with
      callback := fun _ => hr.callback hp
      inFlight := fun _ => hr.inFlight hb
      range := fun _ => hr.range hb } }

theorem State.AtByte.inv (h : s.AtByte) : s.Inv :=
  { h with
    notReady := fun hn => absurd (hn.symm.trans h.inited) Bool.false_ne_true
    regs := fun _ => h.regs }

theorem State.Inv.answerMode (h : s.Inv) (hp : s.phase = .waitMode) (v : Word) : (s.answerMode v).Inv := by
  unfold State.answerMode
  split
  · exact h.abortDecode
  · exact (h.resume (.inl hp)).inv

theorem State.Inv.answerBandM1 (h : s.Inv) (hp : s.phase = .waitBand) (hm : s.mode = .m1) (v : Word) :
    (s.answerBandM1 v).Inv := by
  unfold State.answerBandM1
  split
  · exact h.cursorReset.realWidthReset.abortDecode
  · have hr := h.cursorReset.realWidthReset.resume (.inr hp)
    have hw : s.width = 0 := hr.regs.widthElse (by rw [State.resume_mode, hm]; exact Mode.noConfusion)
    obtain ⟨m, e, hpaint, hf⟩ := s.resume.resetLineM1_first hw hr.build.1.2
    rw [e]
    exact (hr.startBandM1 rfl rfl hpaint hf).advance

theorem State.Inv.answerBandM2Clear (h : s.Inv) (hp : s.phase = .waitBand) (hw : s.width ≤ s.build.rowCap) :
    ({ s.resume.resetLineM2 with cursor := 4 } : State).advance.Inv := by
  obtain ⟨m, e, hpaint, -⟩ := s.resume.resetLineM2_spec hw
  rw [e]
  exact ((h.resume (.inr hp)).withRowbuf hpaint).cursorReset.advance

/-- A write of the host keeps written slots written and stays inside the arrays (R44). -/
theorem State.Inv.writeElement (h : s.Inv) {sp : Space} {k : Nat} (hk : k < s.build.count sp) (v : Word) :
    (s.writeElement sp k v).Inv := by
  have ha := h.arrays.writeElement hk v
  cases sp with
  | inbuf => exact { h with arrays := ha, regs := fun hi => { h.regs hi with } }
  | palette => exact { h with arrays := ha, regs := fun hi => { h.regs hi with } }
  | rowbuf => exact { h with
      arrays := ha
      regs := fun hi => (h.regs hi).withRowbuf fun x hx => Mem.isSome_write _ _ _ hx }

/-- Every transaction keeps the invariant. -/
theorem HostEffect.inv {i : Instr} {t : State} (h : s.Inv) (he : HostEffect i s t) : t.Inv := by
  cases he with
  | refused _ _ c => exact h.refuse c _
  | init c f p u hp => exact h.initialise hp c f p u
  | decodeAborted => exact h.complete
  | decodeStarted a e hi _ hr ha => exact h.startDecode hi hr ha
  | currentWidth hi => exact h.reportWidth hi
  | answerMode v hp => exact h.answerMode hp v
  | answerBandM1 v hp hm => exact h.answerBandM1 hp hm v
  | answerBandM2Abort => exact h.cursorReset.abortDecode
  | answerBandM2Clear _ hp _ _ hw => exact h.answerBandM2Clear hp hw
  | hostRead => exact h.send _
  | hostWrite sp k v _ hk => exact (h.writeElement hk v).of_same rfl (h.writeElement hk v).faults

/-! The step -/

/-- Settles O48: the byte at `pos` keeps the invariant in RUN, a transaction in every phase. -/
theorem stepKeepsTheInvariant : Obligations.StepKeepsTheInvariant := by
  intro s t h ht
  unfold step at ht
  rcases s.turn_cases with ⟨e, -, -⟩ | ⟨q, (⟨e, -, -⟩ | ⟨e, hp, hne, -⟩ | ⟨e, -⟩) | ⟨r, -, ⟨i, hd, e⟩ |
    ⟨x, -, e⟩⟩⟩ <;> rw [e] at ht
  · cases ht; exact h
  · cases ht; exact (h.withPort q).complete
  · exact (effect_of_exec ht).elim (ByteEffect.inv ((h.withPort q).atByte hp hne)) (HostEffect.inv (h.withPort q))
  · cases ht
  · exact (hostEffect_of_decodeCommand hd ht).inv (h.withPort q)
  · cases ht; exact (h.withPort q).refuse _ _

end Sys2Proof.Machine
end

section
/-! SUPPORT. The host's access to the arrays (R44, R45, R53): when HOST_READ and HOST_WRITE are admitted and when
refused, what an element write does to each byte, and the settled statements. -/

namespace Sys2Proof.Machine

variable {s : State} {sp : Space} {k v : Word}

/-! The admission table for the element accesses and ANSWER (R53, R154, R155) -/

theorem exec_hostRead_of_run (hp : s.phase = .run) :
    exec (.hostRead sp k) s = .next (s.refuse .accessInFlight (.known (.hostRead sp k))) := if_pos hp

theorem exec_hostRead_of_index (hp : s.phase ≠ .run) (hk : s.build.count sp ≤ k.toNat) :
    exec (.hostRead sp k) s = .next (s.refuse .badIndex (.known (.hostRead sp k))) :=
  (if_neg hp).trans (if_pos hk)

theorem exec_hostRead_of_admitted (hp : s.phase ≠ .run) (hk : k.toNat < s.build.count sp) :
    exec (.hostRead sp k) s = .next (s.send (s.readElement sp k.toNat)) :=
  (if_neg hp).trans (if_neg (Nat.not_le_of_lt hk))

theorem exec_hostWrite_of_busy (hp : s.phase ≠ .idle) :
    exec (.hostWrite sp k v) s = .next (s.refuse .accessInFlight (.known (.hostWrite sp k v))) := if_pos hp

theorem exec_hostWrite_of_index (hp : s.phase = .idle) (hk : s.build.count sp ≤ k.toNat) :
    exec (.hostWrite sp k v) s = .next (s.refuse .badIndex (.known (.hostWrite sp k v))) :=
  (if_neg (not_not.2 hp)).trans (if_pos hk)

theorem exec_hostWrite_of_admitted (hp : s.phase = .idle) (hk : k.toNat < s.build.count sp) :
    exec (.hostWrite sp k v) s =
      .next { s.writeElement sp k.toNat v with guardEpoch := s.guardEpoch + 1 } :=
  (if_neg (not_not.2 hp)).trans (if_neg (Nat.not_le_of_lt hk))

theorem exec_answer_of_noCallback (hp : s.phase = .idle ∨ s.phase = .run) :
    exec (.answer v) s = .next (s.refuse .noCallback (.known (.answer v))) := by
  show execAnswer v s = _
  unfold execAnswer
  rcases hp with hp | hp <;> rw [hp]

/-! What a read returns -/

theorem State.readElement_payload {i : Nat} (h : 4 ≤ i % s.build.rowStride) :
    s.readElement .rowbuf i = .readWord (s.wordAt .rowbuf i) := if_neg (Nat.not_lt_of_le h)

theorem State.readElement_guard {i : Nat} (h : i % s.build.rowStride < 4) :
    s.readElement .rowbuf i = .readWord (Config.guardWord i s.guardEpoch) := if_pos h

/-! What a write stores -/

/-- An element write is a write of the low bytes of the value, as many as the element has (R44, R46). -/
theorem State.writeElement_eq_writeBytes (s : State) (sp : Space) (i : Nat) (v : Word) :
    s.writeElement sp i v = s.writeBytes sp (sp.elemBytes * i) (v.bytes.take sp.elemBytes) := by
  cases sp with
  | inbuf => rw [Space.elemBytes, Nat.one_mul]; rfl
  | palette => rfl
  | rowbuf => rfl

theorem elemBytes_le (sp : Space) : sp.elemBytes ≤ 4 := by cases sp <;> decide

theorem elementBytes_length (sp : Space) (v : Word) : (v.bytes.take sp.elemBytes).length = sp.elemBytes := by
  rw [List.length_take, Word.bytes_length, Nat.min_eq_left (elemBytes_le sp)]

theorem State.byteAt_writeElement_self (s : State) (sp : Space) (i : Nat) (v : Word) {j : Nat}
    (hj : j < sp.elemBytes) : (s.writeElement sp i v).byteAt sp (sp.elemBytes * i + j) = v.byte j := by
  have hin : sp.elemBytes * i ≤ sp.elemBytes * i + j ∧
      sp.elemBytes * i + j < sp.elemBytes * i + (v.bytes.take sp.elemBytes).length := by
    rw [elementBytes_length]; omega
  have hb : v.bytes[j]? = some (v.byte j) := Word.bytes_getElem? v j (Nat.lt_of_lt_of_le hj (elemBytes_le sp))
  rw [State.writeElement_eq_writeBytes, State.byteAt_writeBytes, dif_pos hin, List.getElem_take]
  simp only [Nat.add_sub_cancel_left]
  exact (List.getElem?_eq_some_iff.1 hb).2

/-- An element write leaves the bytes of the other spaces and of the other elements. -/
theorem State.byteAt_writeElement_ne (s : State) (sp : Space) (i : Nat) (v : Word) {sq : Space} {x : Nat}
    (h : sq ≠ sp ∨ x / sp.elemBytes ≠ i) : (s.writeElement sp i v).byteAt sq x = s.byteAt sq x := by
  rw [State.writeElement_eq_writeBytes]
  by_cases hs : sp = sq
  · subst hs
    have hx : x / sp.elemBytes ≠ i := h.resolve_left (not_not.2 rfl)
    rw [State.byteAt_writeBytes, dif_neg]
    rintro ⟨hlo, hhi⟩
    rw [elementBytes_length, ← Nat.mul_succ] at hhi
    exact hx (Nat.div_eq_of_lt_le (by rwa [Nat.mul_comm]) (by rwa [Nat.mul_comm]))
  · exact State.byteAt_writeBytes_ne _ _ _ _ _ _ hs

/-- No byte of an array depends on the counter of the guard slots' free value (log 12). -/
theorem State.byteAt_withGuardEpoch (s : State) (n : Nat) (sp : Space) (x : Nat) :
    ({ s with guardEpoch := n } : State).byteAt sp x = s.byteAt sp x := by cases sp <;> rfl

theorem State.writeElement_only (s : State) (sp : Space) (i : Nat) (v : Word) :
    s.writeElement sp i v = { s with
      inbuf := (s.writeElement sp i v).inbuf, palette := (s.writeElement sp i v).palette
      rowbuf := (s.writeElement sp i v).rowbuf } := by
  cases sp <;> rfl

/-! The settled statements -/

/-- Settles O34: an admitted read sends `readElement`, which is the stored element outside the guard slots. -/
theorem hostReadReturnsTheElement : Obligations.HostReadReturnsTheElement := by
  intro sp i s hp hi
  rw [exec_hostRead_of_admitted hp hi]
  refine ⟨?_, ?_, ?_, ?_⟩
  · rintro rfl; rfl
  · rintro rfl; rfl
  · rintro rfl h; rw [State.readElement_payload h]; rfl
  · rintro rfl h; rw [State.readElement_guard h]; exact ⟨_, rfl⟩

/-- Settles O35, from the bytes an element write stores and those it leaves. -/
theorem hostWriteWritesTheElement : Obligations.HostWriteWritesTheElement := by
  intro sp i v s hp hi
  refine ⟨_, exec_hostWrite_of_admitted hp hi, ?_, fun j hj => ?_, fun sq x h => ?_⟩
  · exact congrArg (fun t : State => { t with guardEpoch := s.guardEpoch + 1 }) (s.writeElement_only sp i.toNat v)
  · rw [State.byteAt_withGuardEpoch, State.byteAt_writeElement_self _ _ _ _ hj]
  · rw [State.byteAt_withGuardEpoch, State.byteAt_writeElement_ne _ _ _ _ h]

/-- Settles O36: each refused cell of the table answers with `State.refuse`. -/
theorem refusedTransactionsOnlyRecordTheirFault : Obligations.RefusedTransactionsOnlyRecordTheirFault := by
  intro v i w sp s
  refine ⟨fun hp => ?_, fun hp => ?_, fun hp => ?_, fun hp hi => ?_, fun hp hi => ?_⟩
  · exact ⟨_, exec_answer_of_noCallback hp, s.refuse_into _ _⟩
  · exact ⟨_, exec_hostRead_of_run hp, s.refuse_into _ _⟩
  · exact ⟨_, exec_hostWrite_of_busy hp, s.refuse_into _ _⟩
  · exact ⟨_, exec_hostRead_of_index hp hi, s.refuse_into _ _⟩
  · exact ⟨_, exec_hostWrite_of_index hp hi, s.refuse_into _ _⟩

end Sys2Proof.Machine
end

section
/-! SUPPORT. What an instruction does to INBUF and the palette, and the settled statement. Apart from HOST_WRITE only a
started DECODE writes INBUF, and only an assigning color introducer, when it ends, writes the palette. -/

namespace Sys2Proof.Machine

/-- From `s` to `t` INBUF and the palette are the same. -/
structure State.SameInputs (s t : State) : Prop where
  inbuf   : t.inbuf = s.inbuf
  palette : t.palette = s.palette

variable {s t u : State}

theorem State.SameInputs.trans (h : s.SameInputs t) (h' : t.SameInputs u) : s.SameInputs u :=
  ⟨h'.inbuf.trans h.inbuf, h'.palette.trans h.palette⟩

/-! The operations that write neither -/

theorem State.sameInputs_openParam (s : State) : s.SameInputs s.openParam := by
  unfold State.openParam
  split <;> exact ⟨rfl, rfl⟩

theorem State.sameInputs_sixelDataM1 (s : State) (c : BitVec 6) : s.SameInputs (s.sixelDataM1 c) :=
  ⟨by simp [State.sixelDataM1], by simp [State.sixelDataM1]⟩

theorem State.sameInputs_sixelRunM1 (s : State) (c : BitVec 6) : s.SameInputs (s.sixelRunM1 c) :=
  ⟨by simp [State.sixelRunM1], by simp [State.sixelRunM1]⟩

theorem State.sameInputs_sixelDataM2 (s : State) (c : BitVec 6) : s.SameInputs (s.sixelDataM2 c) :=
  ⟨by simp [State.sixelDataM2], by simp [State.sixelDataM2]⟩

theorem State.sameInputs_sixelRunM2 (s : State) (c : BitVec 6) : s.SameInputs (s.sixelRunM2 c) :=
  ⟨by simp [State.sixelRunM2], by simp [State.sixelRunM2]⟩

theorem State.sameInputs_commitCommon (s : State) : s.SameInputs s.commitCommon := by
  unfold State.commitCommon State.resetLine
  split <;> exact ⟨by simp, by simp⟩

theorem State.commitsTo.sameInputs (h : s.commitsTo u) : s.SameInputs u.commitCommon := by
  have hu : s.SameInputs u := ⟨by rw [h.only], by rw [h.only]⟩
  exact hu.trans u.sameInputs_commitCommon

theorem State.sameInputs_reportWidth (s : State) : s.SameInputs s.reportWidth := by
  unfold State.reportWidth
  split <;> exact ⟨rfl, rfl⟩

theorem State.sameInputs_answerMode (s : State) (v : Word) : s.SameInputs (s.answerMode v) := by
  unfold State.answerMode
  split <;> exact ⟨rfl, rfl⟩

theorem State.sameInputs_answerBandM1 (s : State) (v : Word) : s.SameInputs (s.answerBandM1 v) := by
  unfold State.answerBandM1
  split <;> exact ⟨by simp, by simp⟩

/-- Ending a color introducer writes neither, unless it is an open one that assigns (R83, R84). -/
theorem State.resolvesTo.inputs (h : s.resolvesTo u) :
    s.SameInputs u ∨ (u.inbuf = s.inbuf ∧ s.parser = .color ∧ s.isAssign = true) := by
  rcases h with ⟨hp, -, rfl⟩ | ⟨-, rfl⟩
  · rcases s.resolveColor_cases with ⟨-, e⟩ | ⟨-, ha, -⟩ | ⟨-, -, e⟩
    · exact .inl (by rw [e]; exact ⟨rfl, rfl⟩)
    · exact .inr ⟨s.resolveColor_inbuf, hp, ha⟩
    · exact .inl (by rw [e]; exact ⟨rfl, rfl⟩)
  · exact .inl ⟨rfl, rfl⟩

/-! What an instruction does to the two -/

/-- The bytes that end an open color introducer (R84). -/
def endsIntroducer (i : Instr) : Prop := i = .bang ∨ i = .hash ∨ ∃ c, i = .sixel c

/-- The ways in which an instruction other than HOST_WRITE can change INBUF and the palette. -/
inductive InputEffect : Instr → State → State → Prop where
  | same {i : Instr} {s t : State} (h : s.SameInputs t) : InputEffect i s t
  | decode {s t : State} (a e : Word) (hp : t.palette = s.palette) : InputEffect (.decode a e) s t
  | assign {i : Instr} {s t : State} (hi : endsIntroducer i) (hm : s.mode ≠ .undecided) (hp : s.parser = .color)
      (ha : s.isAssign = true) (hb : t.inbuf = s.inbuf) : InputEffect i s t

/-- A byte that ends a color introducer and then writes neither assigns at most. -/
theorem InputEffect.of_resolvesTo {i : Instr} (hi : endsIntroducer i) (hm : s.mode ≠ .undecided)
    (hu : s.resolvesTo u) (ht : u.SameInputs t) : InputEffect i s t := by
  rcases hu.inputs with h | ⟨hb, hp, ha⟩
  · exact .same (h.trans ht)
  · exact .assign hi hm hp ha (ht.inbuf.trans hb)

theorem ByteEffect.inputs {i : Instr} (h : ByteEffect i s t) : InputEffect i s t := by
  cases h with
  | digit d => exact .same ⟨rfl, rfl⟩
  | semi => exact .same (s.sameInputs_openParam.trans ⟨rfl, rfl⟩)
  | ignored => exact .same ⟨rfl, rfl⟩
  | quoteOpens => exact .same ⟨rfl, rfl⟩
  | quoteSkips => exact .same ⟨rfl, rfl⟩
  | commit _ _ hu => exact .same hu.sameInputs
  | bang hm hu => exact .of_resolvesTo (.inl rfl) hm hu ⟨rfl, rfl⟩
  | hash hm hu => exact .of_resolvesTo (.inr (.inl rfl)) hm hu ⟨rfl, rfl⟩
  | dollarM1 => exact .same ⟨rfl, rfl⟩
  | dollarM2 => exact .same ⟨rfl, rfl⟩
  | dashM1 => exact .same ⟨rfl, rfl⟩
  | dashM2 => exact .same ⟨rfl, rfl⟩
  | sixelDataM1 c => exact .same (s.sameInputs_sixelDataM1 c)
  | sixelRunM1 c => exact .same (s.sameInputs_sixelRunM1 c)
  | @sixelColorM1 _ u c hm _ hu =>
    have hd : u.SameInputs { u with parser := .data } := ⟨rfl, rfl⟩
    exact .of_resolvesTo (.inr (.inr ⟨c, rfl⟩)) (ne_undecided_of_m1 hm) hu
      (hd.trans (State.sameInputs_sixelDataM1 _ c))
  | sixelDataM2 c => exact .same (s.sameInputs_sixelDataM2 c)
  | sixelRunM2 c => exact .same (s.sameInputs_sixelRunM2 c)
  | @sixelColorM2 _ u c hm _ hu =>
    have hd : u.SameInputs { u with parser := .data } := ⟨rfl, rfl⟩
    exact .of_resolvesTo (.inr (.inr ⟨c, rfl⟩)) (ne_undecided_of_m2 hm) hu
      (hd.trans (State.sameInputs_sixelDataM2 _ c))

theorem HostEffect.inputs {i : Instr} (hi : ∀ sp k v, i ≠ .hostWrite sp k v) (h : HostEffect i s t) :
    InputEffect i s t := by
  cases h with
  | refused => exact .same ⟨rfl, rfl⟩
  | init => exact .same ⟨rfl, rfl⟩
  | decodeAborted => exact .same ⟨rfl, rfl⟩
  | decodeStarted a e => exact .decode a e rfl
  | currentWidth => exact .same s.sameInputs_reportWidth
  | answerMode v => exact .same (s.sameInputs_answerMode v)
  | answerBandM1 v => exact .same (s.sameInputs_answerBandM1 v)
  | answerBandM2Abort => exact .same ⟨rfl, rfl⟩
  | answerBandM2Clear => exact .same ⟨by simp, by simp⟩
  | hostRead => exact .same ⟨rfl, rfl⟩
  | hostWrite sp k v => exact absurd rfl (hi sp k v)

/-- Settles O55, from what an instruction does to the two arrays. -/
theorem arraysChangeOnlyByTheirWriters : Obligations.ArraysChangeOnlyByTheirWriters := by
  intro i s t h hi
  cases (effect_of_exec h).elim ByteEffect.inputs (HostEffect.inputs hi) with
  | same h => exact ⟨fun _ => h.inbuf, fun _ => h.palette⟩
  | decode a e hp => exact ⟨fun hd => absurd rfl (hd a e), fun _ => hp⟩
  | assign he hm hp ha hb => exact ⟨fun _ => hb, fun hn => absurd ⟨he, hm, hp, ha⟩ hn⟩

end Sys2Proof.Machine
end

section
/-! SUPPORT. The decoder and the encoder (R57 to R61, R64, R70): the class table as a relation between a code and its
instruction, the six transactions by opcode, that decoding undoes encoding; and the settled statements. -/

namespace Sys2Proof

/-! The bytes of the stream -/

/-- The class table (R59 to R61, R64): the instruction of a 7-bit code. -/
inductive CodeClass (code : Nat) : Instr → Prop where
  | digit {d : BitVec 4} (h : 0x30 ≤ code ∧ code ≤ 0x39 ∧ d.toNat = code - 0x30) : CodeClass code (.digit d)
  | semi (h : code = 0x3B) : CodeClass code .semi
  | bang (h : code = 0x21) : CodeClass code .bang
  | hash (h : code = 0x23) : CodeClass code .hash
  | quote (h : code = 0x22) : CodeClass code .quote
  | dollar (h : code = 0x24) : CodeClass code .dollar
  | dash (h : code = 0x2D) : CodeClass code .dash
  | sixel {c : BitVec 6} (h : 0x3F ≤ code ∧ code ≤ 0x7E ∧ c.toNat = code - 63) : CodeClass code (.sixel c)
  | ignored (h : code ≤ 0x20 ∨ (0x25 ≤ code ∧ code ≤ 0x2C) ∨ code = 0x2E ∨ code = 0x2F ∨ code = 0x3A ∨
      (0x3C ≤ code ∧ code ≤ 0x3E) ∨ code = 0x7F) : CodeClass code .ignored

/-- The decoder gives every code an instruction the table has for it. -/
theorem codeClass_decodeCode (c : BitVec 7) : CodeClass c.toNat (decodeCode c) := by
  have hc : c.toNat < 128 := c.isLt
  unfold decodeCode
  split
  · next h => exact .digit ⟨h.1, h.2, Nat.mod_eq_of_lt (by omega)⟩
  split
  · exact .semi ‹_›
  split
  · exact .bang ‹_›
  split
  · exact .hash ‹_›
  split
  · exact .quote ‹_›
  split
  · exact .dollar ‹_›
  split
  · exact .dash ‹_›
  split
  · next h => exact .sixel ⟨h.1, h.2, Nat.mod_eq_of_lt (by omega)⟩
  · exact .ignored (by omega)

/-- The table has one instruction for a code. -/
theorem CodeClass.unique {code : Nat} {i j : Instr} (hi : CodeClass code i) (hj : CodeClass code j) : i = j := by
  cases hi with
  | digit h =>
    obtain ⟨lo, up, hd⟩ := h
    cases hj with
    | digit h' =>
      obtain ⟨-, -, hd'⟩ := h'
      rw [BitVec.eq_of_toNat_eq (hd.trans hd'.symm)]
    | _ => omega
  | sixel h =>
    obtain ⟨lo, up, hc⟩ := h
    cases hj with
    | sixel h' =>
      obtain ⟨-, -, hc'⟩ := h'
      rw [BitVec.eq_of_toNat_eq (hc.trans hc'.symm)]
    | _ => omega
  | _ =>
    cases hj with
    | _ => grind

/-- The code of a byte is its low seven bits (R57). -/
theorem toNat_code (b : Byte) : (b.extractLsb' 0 7).toNat = (b &&& 0x7F).toNat := by
  rw [BitVec.extractLsb'_toNat, BitVec.toNat_and]
  exact (Nat.and_two_pow_sub_one_eq_mod b.toNat 7).symm

/-- A byte decodes to an instruction exactly if the table has it for its code. -/
theorem decodeByte_eq_iff (b : Byte) (i : Instr) : decodeByte b = i ↔ CodeClass (b &&& 0x7F).toNat i := by
  have hb : CodeClass (b &&& 0x7F).toNat (decodeByte b) := toNat_code b ▸ codeClass_decodeCode _
  exact ⟨fun h => h ▸ hb, hb.unique⟩

/-- Bytes with the same low seven bits are the same instruction (R57). -/
theorem decodeByte_congr {b c : Byte} (h : b.extractLsb' 0 7 = c.extractLsb' 0 7) : decodeByte b = decodeByte c := by
  rw [decodeByte, decodeByte, h]

/-- Clearing bit 7 keeps the instruction. -/
theorem decodeByte_and_low (b : Byte) : decodeByte (b &&& 0x7F) = decodeByte b :=
  decodeByte_congr (BitVec.extractLsb'_and.trans BitVec.and_allOnes)

/-- Flipping bit 7 keeps the instruction. -/
theorem decodeByte_xor_high (b : Byte) : decodeByte (b ^^^ 0x80) = decodeByte b :=
  decodeByte_congr (BitVec.extractLsb'_xor.trans BitVec.xor_zero)

/-- Setting bit 7 keeps the instruction. -/
theorem decodeByte_or_high (b : Byte) : decodeByte (b ||| 0x80) = decodeByte b :=
  decodeByte_congr (BitVec.extractLsb'_or.trans BitVec.or_zero)

/-- A byte decodes to its instruction if it does so with bit 7 set, which is the form `EncodingShape` speaks of. -/
theorem decode_byte_of_high {b : Byte} {i : Instr} (h : decode (.byte (b ||| 0x80)) = .ok i) :
    decode (.byte b) = .ok i := by
  rw [← h]
  exact congrArg Except.ok (decodeByte_or_high b).symm

/-! The transactions of the command port, by opcode (R70): a word with the given fields -/

section Command

variable {w : TxnWord} {sp : Space} {k v : Word}

theorem decodeCommand_init {c f p t : Word} (hop : w.extractLsb' 0 4 = 1) (hc : w.extractLsb' 4 32 = c)
    (hf : w.extractLsb' 36 32 = f) (hp : w.extractLsb' 68 32 = p) (ht : w.extractLsb' 100 32 = t) :
    decodeCommand w = .ok (.init c f p t) := by
  simp only [decodeCommand, hop, hc, hf, hp, ht, if_true]

theorem decodeCommand_decode {a e : Word} (hop : w.extractLsb' 0 4 = 2) (ha : w.extractLsb' 4 32 = a)
    (he : w.extractLsb' 36 32 = e) : decodeCommand w = .ok (.decode a e) := by
  simp [decodeCommand, hop, ha, he]

theorem decodeCommand_currentWidth (hop : w.extractLsb' 0 4 = 3) : decodeCommand w = .ok .currentWidth := by
  simp [decodeCommand, hop]

theorem decodeCommand_answer (hop : w.extractLsb' 0 4 = 4) (hv : w.extractLsb' 4 32 = v) :
    decodeCommand w = .ok (.answer v) := by
  simp [decodeCommand, hop, hv]

theorem decodeCommand_hostRead (hop : w.extractLsb' 0 4 = 5) (hs : decodeSpace (w.extractLsb' 4 2) = some sp)
    (hk : w.extractLsb' 6 32 = k) : decodeCommand w = .ok (.hostRead sp k) := by
  simp [decodeCommand, hop, hs, hk]

/-- An INBUF write carries its value in 8 bits (R44). -/
theorem decodeCommand_hostWrite_inbuf (hop : w.extractLsb' 0 4 = 6)
    (hs : decodeSpace (w.extractLsb' 4 2) = some .inbuf) (hk : w.extractLsb' 6 32 = k)
    (hv : (w.extractLsb' 38 8).setWidth 32 = v) : decodeCommand w = .ok (.hostWrite .inbuf k v) := by
  simp [decodeCommand, hop, hs, hk, hv]

theorem decodeCommand_hostWrite_word (hw : sp ≠ .inbuf) (hop : w.extractLsb' 0 4 = 6)
    (hs : decodeSpace (w.extractLsb' 4 2) = some sp) (hk : w.extractLsb' 6 32 = k)
    (hv : w.extractLsb' 38 32 = v) : decodeCommand w = .ok (.hostWrite sp k v) := by
  cases sp with
  | inbuf => exact absurd rfl hw
  | palette => simp [decodeCommand, hop, hs, hk, hv]
  | rowbuf => simp [decodeCommand, hop, hs, hk, hv]

theorem decodeCommand_unknownSpace (hop : w.extractLsb' 0 4 = 5 ∨ w.extractLsb' 0 4 = 6)
    (hs : decodeSpace (w.extractLsb' 4 2) = none) : decodeCommand w = .error .unknownSpace := by
  rcases hop with hop | hop <;> simp [decodeCommand, hop, hs]

theorem decodeCommand_unknownOpcode (hop : (w.extractLsb' 0 4).toNat = 0 ∨ 6 < (w.extractLsb' 0 4).toNat) :
    decodeCommand w = .error (.unknownOpcode (w.extractLsb' 0 4)) := by
  have hne : ∀ op : BitVec 4, 1 ≤ op.toNat → op.toNat ≤ 6 → w.extractLsb' 0 4 ≠ op := by
    rintro op lo hi rfl
    omega
  simp only [decodeCommand]
  rw [if_neg (hne 1 (by decide) (by decide)), if_neg (hne 2 (by decide) (by decide)),
    if_neg (hne 3 (by decide) (by decide)), if_neg (hne 4 (by decide) (by decide)),
    if_neg (hne 5 (by decide) (by decide)), if_neg (hne 6 (by decide) (by decide))]

end Command

/-! The fields of a word put together from its parts -/

section Fields

variable {n m start len : Nat} {x : BitVec n} {y : BitVec m} {v : BitVec len}

/-- A field above the last part of a word. -/
theorem field_above (hm : m ≤ start) (h : x.extractLsb' (start - m) len = v) :
    (x ++ y).extractLsb' start len = v :=
  (BitVec.extractLsb'_append_eq_of_le hm).trans h

/-- A field of a word widened to one of the command port. -/
theorem field_wide (hw : start + len ≤ 132) (h : x.extractLsb' start len = v) :
    (x.setWidth 132).extractLsb' start len = v :=
  (BitVec.extractLsb'_setWidth_of_le hw).trans h

/-- The opcode of a word widened to one of the command port. -/
theorem opcode_wide (x : BitVec n) (op : BitVec 4) : ((x ++ op).setWidth 132).extractLsb' 0 4 = op :=
  field_wide (by decide) BitVec.extractLsb'_append_eq_right

/-- The space code above the opcode of a word of the command port. -/
theorem space_wide (x : BitVec n) (sp : Space) (op : BitVec 4) :
    decodeSpace (((x ++ encodeSpace sp ++ op).setWidth 132).extractLsb' 4 2) = some sp := by
  rw [field_wide (by decide) (field_above (by decide) BitVec.extractLsb'_append_eq_right)]
  cases sp <;> rfl

end Fields

/-! Decoding what was encoded -/

/-- The four operands of INIT lie above the opcode, each above those before it (log 7). -/
theorem decode_encode_init (c f p t : Word) : decode (encode (.init c f p t)) = .ok (.init c f p t) :=
  decodeCommand_init BitVec.extractLsb'_append_eq_right
    (field_above (by decide) BitVec.extractLsb'_append_eq_right)
    (field_above (by decide) (field_above (by decide) BitVec.extractLsb'_append_eq_right))
    (field_above (by decide) (field_above (by decide) (field_above (by decide)
      BitVec.extractLsb'_append_eq_right)))
    (field_above (by decide) (field_above (by decide) (field_above (by decide)
      (field_above (by decide) BitVec.extractLsb'_eq_self))))

theorem decode_encode_decode (a e : Word) : decode (encode (.decode a e)) = .ok (.decode a e) :=
  decodeCommand_decode (opcode_wide (e ++ a) 2#4)
    (field_wide (by decide) (field_above (by decide) BitVec.extractLsb'_append_eq_right))
    (field_wide (by decide) (field_above (by decide) (field_above (by decide) BitVec.extractLsb'_eq_self)))

theorem decode_encode_answer (v : Word) : decode (encode (.answer v)) = .ok (.answer v) :=
  decodeCommand_answer (opcode_wide v 4#4)
    (field_wide (by decide) (field_above (by decide) BitVec.extractLsb'_eq_self))

theorem decode_encode_hostRead (sp : Space) (k : Word) :
    decode (encode (.hostRead sp k)) = .ok (.hostRead sp k) :=
  decodeCommand_hostRead (opcode_wide (k ++ encodeSpace sp) 5#4) (space_wide k sp 5#4)
    (field_wide (by decide) (field_above (by decide) (field_above (by decide) BitVec.extractLsb'_eq_self)))

/-- The index of an element write, below a value of any width. -/
theorem index_wide {n : Nat} (x : BitVec n) (k : Word) (sp : Space) :
    ((x ++ k ++ encodeSpace sp ++ 6#4).setWidth 132).extractLsb' 6 32 = k :=
  field_wide (by decide)
    (field_above (by decide) (field_above (by decide) BitVec.extractLsb'_append_eq_right))

/-- The value of an element write, of the width it has in its word. -/
theorem value_wide {n : Nat} (x : BitVec n) (hn : 38 + n ≤ 132) (k : Word) (sp : Space) :
    ((x ++ k ++ encodeSpace sp ++ 6#4).setWidth 132).extractLsb' 38 n = x :=
  field_wide hn (field_above (by decide) (field_above (by decide) (field_above (by decide)
    BitVec.extractLsb'_eq_self)))

/-- An INBUF write keeps its value, which is a byte (R44). -/
theorem decode_encode_hostWrite_inbuf (k v : Word) (hv : v.toNat < 256) :
    decode (encode (.hostWrite .inbuf k v)) = .ok (.hostWrite .inbuf k v) := by
  refine decodeCommand_hostWrite_inbuf (opcode_wide (v.extractLsb' 0 8 ++ k ++ encodeSpace .inbuf) 6#4)
    (space_wide (v.extractLsb' 0 8 ++ k) .inbuf 6#4) (index_wide (v.extractLsb' 0 8) k .inbuf) ?_
  rw [value_wide _ (by decide)]
  apply BitVec.eq_of_toNat_eq
  rw [BitVec.toNat_setWidth, BitVec.extractLsb'_toNat]
  omega

theorem decode_encode_hostWrite_word {sp : Space} (hs : sp ≠ .inbuf) (k v : Word) :
    decode (encode (.hostWrite sp k v)) = .ok (.hostWrite sp k v) := by
  have he : encode (.hostWrite sp k v) = .command ((v ++ k ++ encodeSpace sp ++ 6#4).setWidth 132) := by
    cases sp with
    | inbuf => exact absurd rfl hs
    | palette => rfl
    | rowbuf => rfl
  rw [he]
  exact decodeCommand_hostWrite_word hs (opcode_wide (v ++ k ++ encodeSpace sp) 6#4) (space_wide (v ++ k) sp 6#4)
    (index_wide v k sp) (value_wide v (by decide) k sp)

/-! The settled statements -/

/-- Settles O1: a byte of the stream decodes as it does with bit 7 set, a transaction by its fields. -/
theorem decodeOfEncodeIsTheInstruction : Obligations.DecodeOfEncodeIsTheInstruction := by
  intro i hi
  cases i with
  | digit d => exact decode_byte_of_high (Laws.EncodingShape.digit d hi)
  | semi => exact decode_byte_of_high (Laws.EncodingShape.semi hi)
  | bang => exact decode_byte_of_high (Laws.EncodingShape.bang hi)
  | hash => exact decode_byte_of_high (Laws.EncodingShape.hash hi)
  | quote => exact decode_byte_of_high (Laws.EncodingShape.quote hi)
  | dollar => exact decode_byte_of_high (Laws.EncodingShape.dollar hi)
  | dash => exact decode_byte_of_high (Laws.EncodingShape.dash hi)
  | sixel c => exact decode_byte_of_high (Laws.EncodingShape.sixel c hi)
  | ignored => exact decode_byte_of_high (Laws.EncodingShape.ignored hi)
  | init c f p t => exact decode_encode_init c f p t
  | decode a e => exact decode_encode_decode a e
  | currentWidth => exact decodeCommand_currentWidth (w := 3) (by decide)
  | answer v => exact decode_encode_answer v
  | hostRead sp k => exact decode_encode_hostRead sp k
  | hostWrite sp k v =>
    cases sp with
    | inbuf => exact decode_encode_hostWrite_inbuf k v (of_decide_eq_true hi)
    | palette => exact decode_encode_hostWrite_word Space.noConfusion k v
    | rowbuf => exact decode_encode_hostWrite_word Space.noConfusion k v

/-- Settles O2: each clause reads the class table at one instruction. -/
theorem byteClassesAreTheTable : Obligations.ByteClassesAreTheTable := by
  intro b code
  simp only [decodeByte_eq_iff]
  exact ⟨fun _ => ⟨fun | .digit h => h, .digit⟩, ⟨fun | .semi h => h, .semi⟩, ⟨fun | .bang h => h, .bang⟩,
    ⟨fun | .hash h => h, .hash⟩, ⟨fun | .quote h => h, .quote⟩, ⟨fun | .dollar h => h, .dollar⟩,
    ⟨fun | .dash h => h, .dash⟩, fun _ => ⟨fun | .sixel h => h, .sixel⟩, ⟨fun | .ignored h => h, .ignored⟩⟩

/-- Settles O3: neither change touches the low seven bits. -/
theorem highBitOfAByteIsIgnored : Obligations.HighBitOfAByteIsIgnored :=
  fun b => ⟨decodeByte_and_low b, decodeByte_xor_high b⟩

/-- Settles O4: the two rejections of the command decoder. -/
theorem unknownCommandWordsAreRejected : Obligations.UnknownCommandWordsAreRejected :=
  fun _ => ⟨decodeCommand_unknownOpcode, fun hop hs => decodeCommand_unknownSpace hop (hs ▸ rfl)⟩

/-- Settles O5: the bytes are rows of the class table, the words have the opcodes and operands written out. -/
theorem writtenWordsDecode : Obligations.WrittenWordsDecode :=
  ⟨by decide, by decide, by decide, by decide, by decide,
    decodeCommand_decode (w := 0x42) (by decide) (by decide) (by decide),
    decodeCommand_currentWidth (w := 0x3) (by decide)⟩

end Sys2Proof
end

section
/-! SUPPORT. The host's move (R155, log 6): the step takes the first pending transaction and means what its word decodes
to; and the settled statement. -/

namespace Sys2Proof.Machine

variable {s : State} {r : Request} {rest : List Request}

/-- Outside RUN, or when its arrival is due, the first pending transaction moves. -/
theorem State.turn_of_host (hp : s.port = r :: rest) (h : s.phase ≠ .run ∨ r.arrival = .afterBytes 0) :
    s.turn = s.hostTurn r rest := by
  unfold State.turn
  rw [hp]
  by_cases hr : s.phase = .run
  · simp only [hr, if_true, h.resolve_left (not_not.2 hr)]
  · simp only [hr, if_false]

/-- A transaction that moves is executed (R155). -/
theorem step_of_hostTurn_ok {i : Instr} (ht : s.turn = s.hostTurn r rest) (hd : decodeCommand r.word = .ok i) :
    step s = exec i { s with port := rest } := by
  simp only [step, ht, State.hostTurn, hd]

/-- A word that is no transaction is refused as F_BAD_COMMAND (R70, R167). -/
theorem step_of_hostTurn_error {e : DecodeError} (ht : s.turn = s.hostTurn r rest)
    (hd : decodeCommand r.word = .error e) :
    step s = .next (({ s with port := rest } : State).refuse .badCommand (.unknown r.word)) := by
  simp only [step, ht, State.hostTurn, hd]

/-- Settles O7, by whether the word of the first pending transaction decodes. -/
theorem stepTakesTheNextTransaction : Obligations.StepTakesTheNextTransaction := by
  intro s r rest hp h
  have ht := State.turn_of_host hp h
  exact ⟨fun i hd => step_of_hostTurn_ok ht hd,
    fun e hd => ⟨_, step_of_hostTurn_error ht hd, State.refuse_into _ _ _⟩⟩

end Sys2Proof.Machine
end

section
/-! SUPPORT. The machine never stops in a state of the invariant (R66, R160): an instruction completes in every state if
it neither commits nor answers a BAND callback, and those do in a state with the registers of an initialised block; and
the settled statement. -/

namespace Sys2Proof.Machine

variable {s : State}

/-- A meaning answers with a next state, neither stopping in a fault nor refusing. -/
def answersNext (x : Result) : Prop := ∃ t, x = .next t

theorem answersNext_next (t : State) : answersNext (.next t) := ⟨t, rfl⟩

theorem answersNext_ite {p : Prop} [Decidable p] {x y : Result} (hx : answersNext x) (hy : answersNext y) :
    answersNext (if p then x else y) := by
  split
  · exact hx
  · exact hy

/-! The commit and the color resolution -/

/-- In the two parser states of an undecided block the commit has its rule (R16, R104). -/
theorem State.commit_answersNext (hp : s.parser = .data ∨ s.parser = .attr) : answersNext s.commit := by
  rcases hp with hp | hp <;> rw [State.commit, hp]
  · exact answersNext_next _
  · exact answersNext_ite (answersNext_next _) (answersNext_next _)

/-- The palette index of an initialised block is a register (R29, R82). -/
theorem State.RegsOk.paletteOk (h : s.RegsOk) : s.paletteOk = true := by
  obtain ⟨lo, hi⟩ := h.paletteLength
  rw [State.paletteOk, decide_eq_true lo, decide_eq_true hi]; rfl

/-- A byte rule that ends an open color introducer goes on (R84). -/
theorem State.RegsOk.resolveThen_answersNext (h : s.RegsOk) (g : State → State) :
    answersNext (s.resolveThen fun u => .next (g u)) := by
  rw [State.resolveThen, h.paletteOk]
  exact answersNext_ite (answersNext_next _) (answersNext_next _)

/-! The instructions that can stop -/

theorem State.RegsOk.execBang_answersNext (h : s.RegsOk) : answersNext (execBang s) := by
  unfold execBang
  split
  · next hm => exact State.commit_answersNext (h.preamble hm)
  · exact h.resolveThen_answersNext fun u => u.openList .compression
  · exact h.resolveThen_answersNext fun u => u.openList .compression

theorem State.RegsOk.execHash_answersNext (h : s.RegsOk) : answersNext (execHash s) := by
  unfold execHash
  split
  · next hm => exact State.commit_answersNext (h.preamble hm)
  · exact h.resolveThen_answersNext fun u => u.openList .color
  · exact h.resolveThen_answersNext fun u => u.openList .color

theorem State.RegsOk.execDollar_answersNext (h : s.RegsOk) : answersNext (execDollar s) := by
  unfold execDollar
  split
  · next hm => exact State.commit_answersNext (h.preamble hm)
  · exact answersNext_next _
  · exact answersNext_next _

theorem State.RegsOk.execDash_answersNext (h : s.RegsOk) : answersNext (execDash s) := by
  unfold execDash
  split
  · next hm => exact State.commit_answersNext (h.preamble hm)
  · exact answersNext_next _
  · exact answersNext_next _

/-- No sixel meets state Attr after the commit (R16). -/
theorem State.RegsOk.execSixel_answersNext (h : s.RegsOk) (c : BitVec 6) : answersNext (execSixel c s) := by
  unfold execSixel
  split
  · next hm => exact State.commit_answersNext (h.preamble hm)
  · next hm =>
    split
    · exact answersNext_next _
    · exact answersNext_next _
    · exact h.resolveThen_answersNext fun u => { u with parser := .data }.sixelDataM1 c
    · next hp => exact absurd hp (h.committed (ne_undecided_of_m1 hm))
  · next hm =>
    split
    · exact answersNext_next _
    · exact answersNext_next _
    · exact h.resolveThen_answersNext fun u => { u with parser := .data }.sixelDataM2 c
    · next hp => exact absurd hp (h.committed (ne_undecided_of_m2 hm))

/-- A BAND answer comes in M1 or M2, there with a width of at most ROWCAP (R33, R162). -/
theorem execAnswer_answersNext (v : Word) (h : s.phase = .waitBand → s.RegsOk) : answersNext (execAnswer v s) := by
  unfold execAnswer
  split
  · exact answersNext_next _
  · exact answersNext_next _
  · exact answersNext_next _
  · next hp =>
    split
    · next hm => exact absurd hm ((h hp).callback (.inr hp)).1
    · exact answersNext_next _
    · next hm =>
      rw [State.answerBandM2, if_pos ((h hp).widthM2 hm).2]
      exact answersNext_ite (answersNext_next _) (answersNext_next _)

theorem execQuote_answersNext (s : State) : answersNext (execQuote s) := by
  unfold execQuote
  split
  · exact answersNext_ite (answersNext_next _) (answersNext_next _)
  · exact answersNext_next _
  · exact answersNext_next _

/-- Every instruction completes; only a committing byte and the answer to a BAND callback need the registers to be
those of an initialised block. -/
theorem exec_answersNext {i : Instr} (h : commits i = true ∨ s.phase = .waitBand → s.RegsOk) :
    answersNext (exec i s) := by
  have hn := answersNext_next
  cases i with
  | digit d => exact hn _
  | semi => exact hn _
  | bang => exact (h (.inl rfl)).execBang_answersNext
  | hash => exact (h (.inl rfl)).execHash_answersNext
  | quote => exact execQuote_answersNext s
  | dollar => exact (h (.inl rfl)).execDollar_answersNext
  | dash => exact (h (.inl rfl)).execDash_answersNext
  | sixel c => exact (h (.inl rfl)).execSixel_answersNext c
  | ignored => exact hn _
  | init c f p u => exact answersNext_ite (hn _) (hn _)
  | decode a e =>
    exact answersNext_ite (hn _) (answersNext_ite (hn _)
      (answersNext_ite (hn _) (answersNext_ite (hn _) (hn _))))
  | currentWidth => exact answersNext_ite (hn _) (answersNext_ite (hn _) (hn _))
  | answer v => exact execAnswer_answersNext v fun hp => h (.inr hp)
  | hostRead sp k => exact answersNext_ite (hn _) (answersNext_ite (hn _) (hn _))
  | hostWrite sp k v => exact answersNext_ite (hn _) (answersNext_ite (hn _) (hn _))

/-- No transaction of the command port commits. -/
theorem commits_of_decodeCommand {w : TxnWord} {i : Instr} (hd : decodeCommand w = .ok i) : commits i = false := by
  rcases decodeCommand_cases hd with ⟨c, f, p, u, rfl⟩ | ⟨a, e, rfl⟩ | rfl | ⟨v, rfl⟩ | ⟨sp, k, rfl⟩ |
    ⟨sp, k, v, rfl⟩ <;> rfl

/-- The registers are in their ranges in every phase but IDLE. -/
theorem State.Inv.regs_of_busy (h : s.Inv) (hp : s.phase ≠ .idle) : s.RegsOk := h.regs (h.inited_of_busy hp)

/-- Settles O49: the block's move runs in an initialised block, and the host's needs that only for a BAND answer. -/
theorem invariantStatesNeverStop : Obligations.InvariantStatesNeverStop := by
  intro s h
  show answersNext (step s)
  unfold step
  rcases s.turn_cases with ⟨e, -, -⟩ | ⟨q, (⟨e, -, -⟩ | ⟨e, hp, hne, -⟩ | ⟨e, hp, -, hle⟩) | ⟨r, -, ⟨i, hd, e⟩ |
    ⟨x, -, e⟩⟩⟩ <;> rw [e]
  · exact answersNext_next _
  · exact answersNext_next _
  · exact exec_answersNext fun _ => ((h.withPort q).atByte hp hne).regs
  · have hb : s.phase ≠ .idle := by rw [hp]; exact Phase.noConfusion
    obtain ⟨hpos, hend⟩ := (h.regs_of_busy hb).range hb
    omega
  · refine exec_answersNext fun hw => (h.withPort q).regs_of_busy ?_
    rcases hw with hc | hp
    · exact absurd ((commits_of_decodeCommand hd).symm.trans hc) Bool.false_ne_true
    · rw [hp]; exact Phase.noConfusion
  · exact answersNext_next _

end Sys2Proof.Machine
end

section
/-! SUPPORT. What an instruction does to the event list and the phase (R153, R162): DASH and a commit raise their
callback into its wait, every other effect raises none and enters no wait; and the settled statement. -/

namespace Sys2Proof.Machine

/-- From `s` to `t` no callback is raised and no wait is entered. -/
structure State.Quiet (s t : State) : Prop where
  event : ∀ k a, t.out ≠ .callback k a :: s.out
  phase : t.phase = .waitMode ∨ t.phase = .waitBand → t.phase = s.phase

variable {s t u : State}

/-- Nothing is sent and the phase stays. -/
theorem State.Quiet.of_same (ho : t.out = s.out) (hp : t.phase = s.phase) : s.Quiet t :=
  ⟨fun _ _ h => List.cons_ne_self _ _ (h.symm.trans ho), fun _ => hp⟩

/-- The block runs on, and nothing is sent. -/
theorem State.Quiet.of_run (ho : t.out = s.out) (hp : t.phase = .run) : s.Quiet t :=
  ⟨fun _ _ h => List.cons_ne_self _ _ (h.symm.trans ho), fun h => by simp [hp] at h⟩

/-- A signal other than a callback is sent, and the phase stays or becomes IDLE. -/
theorem State.Quiet.of_sent {x : Signal} (hx : ∀ k a, x ≠ .callback k a) (ho : t.out = x :: s.out)
    (hp : t.phase = s.phase ∨ t.phase = .idle) : s.Quiet t := by
  refine ⟨fun k a h => hx k a (List.cons.inj (ho.symm.trans h)).1, fun hw => hp.resolve_right fun hi => ?_⟩
  simp [hi] at hw

/-! The operations that raise no callback -/

theorem State.quiet_openParam (s : State) : s.Quiet s.openParam.advance := by
  unfold State.openParam
  split <;> exact .of_same rfl rfl

theorem State.resolvesTo.out_eq (h : s.resolvesTo u) : u.out = s.out := by
  rcases h with ⟨-, -, rfl⟩ | ⟨-, rfl⟩
  · exact s.resolveColor_out
  · rfl

theorem State.resolvesTo.phase_eq (h : s.resolvesTo u) : u.phase = s.phase := by
  rcases h with ⟨-, -, rfl⟩ | ⟨-, rfl⟩
  · exact s.resolveColor_phase
  · rfl

@[simp] theorem State.sixelDataM1_out (s : State) (c : BitVec 6) : (s.sixelDataM1 c).out = s.out := by
  simp [State.sixelDataM1]

@[simp] theorem State.sixelDataM1_phase (s : State) (c : BitVec 6) : (s.sixelDataM1 c).phase = s.phase := by
  simp [State.sixelDataM1]

@[simp] theorem State.sixelRunM1_out (s : State) (c : BitVec 6) : (s.sixelRunM1 c).out = s.out := by
  simp [State.sixelRunM1]

@[simp] theorem State.sixelRunM1_phase (s : State) (c : BitVec 6) : (s.sixelRunM1 c).phase = s.phase := by
  simp [State.sixelRunM1]

@[simp] theorem State.sixelDataM2_out (s : State) (c : BitVec 6) : (s.sixelDataM2 c).out = s.out := by
  simp [State.sixelDataM2]

@[simp] theorem State.sixelDataM2_phase (s : State) (c : BitVec 6) : (s.sixelDataM2 c).phase = s.phase := by
  simp [State.sixelDataM2]

@[simp] theorem State.sixelRunM2_out (s : State) (c : BitVec 6) : (s.sixelRunM2 c).out = s.out := by
  simp [State.sixelRunM2]

@[simp] theorem State.sixelRunM2_phase (s : State) (c : BitVec 6) : (s.sixelRunM2 c).phase = s.phase := by
  simp [State.sixelRunM2]

/-- CURRENT_WIDTH sends its result (R147). -/
theorem State.quiet_reportWidth (s : State) : s.Quiet s.reportWidth := by
  unfold State.reportWidth
  split <;> exact .of_sent (fun _ _ => Signal.noConfusion) rfl (.inl rfl)

theorem State.readElement_ne_callback (s : State) (sp : Space) (i : Nat) (k : CallbackKind) (a : Word) :
    s.readElement sp i ≠ .callback k a := by
  unfold State.readElement
  split
  · exact Signal.noConfusion
  · exact Signal.noConfusion
  · split <;> exact Signal.noConfusion

/-- A non-zero answer ends the DECODE, a zero answer goes on (R144, R166). -/
theorem State.quiet_answerMode (s : State) (v : Word) : s.Quiet (s.answerMode v) := by
  unfold State.answerMode
  split
  · exact .of_sent (fun _ _ => Signal.noConfusion) rfl (.inr rfl)
  · exact .of_run rfl rfl

theorem State.quiet_answerBandM1 (s : State) (v : Word) : s.Quiet (s.answerBandM1 v) := by
  unfold State.answerBandM1
  split
  · exact .of_sent (fun _ _ => Signal.noConfusion) rfl (.inr rfl)
  · exact .of_run (by simp) (by simp)

theorem State.quiet_writeElement (s : State) (sp : Space) (k : Nat) (v : Word) (n : Nat) :
    s.Quiet { s.writeElement sp k v with guardEpoch := n } := by
  cases sp <;> exact .of_same rfl rfl

/-! The commit -/

/-- A commit raises MODE with the code of the committed mode (R108, R145). -/
theorem State.commitsTo.raisesMode (h : s.commitsTo u) :
    u.commitCommon.out = .callback .mode (u.mode.code.setWidth 32) :: s.out ∧ u.commitCommon.mode = u.mode := by
  have ho : u.out = s.out := by rw [h.only]
  unfold State.commitCommon State.resetLine
  rw [← ho]
  split <;> exact ⟨by simp, by simp⟩

theorem State.commitCommon_phase (s : State) : s.commitCommon.phase = .waitMode := rfl

/-! What an instruction does to the two -/

/-- The ways in which an instruction can change the event list and the phase. -/
inductive CallbackEffect : Instr → State → State → Prop where
  | quiet {i : Instr} {s t : State} (h : s.Quiet t) : CallbackEffect i s t
  | band {s t : State} {a : Word} (hm : s.mode ≠ .undecided) (ho : t.out = .callback .band a :: s.out)
      (hp : t.phase = .waitBand) : CallbackEffect .dash s t
  | mode {i : Instr} {s t : State} (hi : commits i = true) (hm : s.mode = .undecided)
      (ht : t.mode ≠ .undecided) (ho : t.out = .callback .mode (t.mode.code.setWidth 32) :: s.out)
      (hp : t.phase = .waitMode) : CallbackEffect i s t

theorem ByteEffect.callback {i : Instr} (h : ByteEffect i s t) : CallbackEffect i s t := by
  cases h with
  | digit d => exact .quiet (.of_same rfl rfl)
  | semi => exact .quiet s.quiet_openParam
  | ignored => exact .quiet (.of_same rfl rfl)
  | quoteOpens => exact .quiet (.of_same rfl rfl)
  | quoteSkips => exact .quiet (.of_same rfl rfl)
  | @commit _ _ u hi hm hu =>
    obtain ⟨ho, hmode⟩ := hu.raisesMode
    obtain ⟨ht, -⟩ := hu.control
    exact .mode hi hm ht (hmode.symm ▸ ho) u.commitCommon_phase
  | bang _ hu => exact .quiet (.of_same hu.out_eq hu.phase_eq)
  | hash _ hu => exact .quiet (.of_same hu.out_eq hu.phase_eq)
  | dollarM1 => exact .quiet (.of_same rfl rfl)
  | dollarM2 => exact .quiet (.of_same rfl rfl)
  | dashM1 hm => exact .band (ne_undecided_of_m1 hm) rfl rfl
  | dashM2 hm => exact .band (ne_undecided_of_m2 hm) rfl rfl
  | sixelDataM1 c => exact .quiet (.of_same (s.sixelDataM1_out c) (s.sixelDataM1_phase c))
  | sixelRunM1 c => exact .quiet (.of_same (s.sixelRunM1_out c) (s.sixelRunM1_phase c))
  | sixelColorM1 c _ _ hu =>
    exact .quiet (.of_same ((State.sixelDataM1_out _ c).trans hu.out_eq)
      ((State.sixelDataM1_phase _ c).trans hu.phase_eq))
  | sixelDataM2 c => exact .quiet (.of_same (s.sixelDataM2_out c) (s.sixelDataM2_phase c))
  | sixelRunM2 c => exact .quiet (.of_same (s.sixelRunM2_out c) (s.sixelRunM2_phase c))
  | sixelColorM2 c _ _ hu =>
    exact .quiet (.of_same ((State.sixelDataM2_out _ c).trans hu.out_eq)
      ((State.sixelDataM2_phase _ c).trans hu.phase_eq))

/-- No transaction of the host raises a callback or enters a wait. -/
theorem HostEffect.quiet {i : Instr} (h : HostEffect i s t) : s.Quiet t := by
  cases h with
  | refused => exact .of_same rfl rfl
  | init => exact .of_same rfl rfl
  | decodeAborted => exact .of_sent (fun _ _ => Signal.noConfusion) rfl (.inr rfl)
  | decodeStarted => exact .of_run rfl rfl
  | currentWidth => exact s.quiet_reportWidth
  | answerMode v => exact s.quiet_answerMode v
  | answerBandM1 v => exact s.quiet_answerBandM1 v
  | answerBandM2Abort => exact .of_sent (fun _ _ => Signal.noConfusion) rfl (.inr rfl)
  | answerBandM2Clear => exact .of_run (by simp) (by simp)
  | hostRead sp k => exact .of_sent (s.readElement_ne_callback sp k.toNat) rfl (.inl rfl)
  | hostWrite sp k v => exact s.quiet_writeElement sp k.toNat v _

theorem callbackEffect_of_exec {i : Instr} (h : exec i s = .next t) : CallbackEffect i s t :=
  (effect_of_exec h).elim ByteEffect.callback fun h => .quiet h.quiet

/-- The argument of the MODE callback names the committed mode (R25, R145). -/
theorem Mode.code_of_committed {m : Mode} (h : m ≠ .undecided) :
    m.code.setWidth 32 = (1 : Word) ∧ m = .m1 ∨ m.code.setWidth 32 = (2 : Word) ∧ m = .m2 := by
  cases m with
  | undecided => exact absurd rfl h
  | m1 => exact .inl ⟨rfl, rfl⟩
  | m2 => exact .inr ⟨rfl, rfl⟩

/-- Settles O60, from what an instruction does to the event list and the phase. -/
theorem callbacksCarryTheirKind : Obligations.CallbacksCarryTheirKind := by
  intro i s t h
  cases callbackEffect_of_exec h with
  | quiet h => exact ⟨fun k a ho => absurd ho (h.event k a), fun hw => .inl (h.phase hw)⟩
  | @band _ _ a hm ho hp =>
    refine ⟨fun k b hk => ?_, fun _ => .inr ⟨_, _, ho⟩⟩
    obtain ⟨rfl, rfl⟩ := Signal.callback.inj (List.cons.inj (ho.symm.trans hk)).1
    exact .inl ⟨rfl, rfl, hp, rfl, hm⟩
  | mode hi hm ht ho hp =>
    refine ⟨fun k b hk => ?_, fun _ => .inr ⟨_, _, ho⟩⟩
    obtain ⟨rfl, rfl⟩ := Signal.callback.inj (List.cons.inj (ho.symm.trans hk)).1
    exact .inr ⟨rfl, rfl, hp, hi, hm, Mode.code_of_committed ht⟩

end Sys2Proof.Machine
end

section
/-! SUPPORT. The values of the two color converters (R71 to R73, R81): a packed word by its bytes; and the settled
statements. -/

namespace Sys2Proof

/-- Appending a byte below a bit vector shifts its value up by eight bits. -/
theorem append_byte_toNat {n : Nat} (x : BitVec n) (b : Byte) : (x ++ b).toNat = x.toNat * 2 ^ 8 + b.toNat := by
  rw [BitVec.toNat_append, ← Nat.shiftLeft_add_eq_or_of_lt b.isLt, Nat.shiftLeft_eq]

/-- The value of a word put together from its bytes (R46). -/
theorem Word.ofBytes_toNat (b0 b1 b2 b3 : Byte) :
    (Word.ofBytes b0 b1 b2 b3).toNat =
      b3.toNat * 2 ^ 24 + b2.toNat * 2 ^ 16 + b1.toNat * 2 ^ 8 + b0.toNat := by
  rw [Word.ofBytes, append_byte_toNat, append_byte_toNat, append_byte_toNat]
  omega

/-- The top byte of a word is the last one it is put together from (R46). -/
theorem Word.ofBytes_byte_three (b0 b1 b2 b3 : Byte) : (Word.ofBytes b0 b1 b2 b3).byte 3 = b3 := by
  rw [Word.byte, Word.ofBytes, BitVec.extractLsb'_append_eq_of_le (by decide),
    BitVec.extractLsb'_append_eq_of_le (by decide), BitVec.extractLsb'_append_eq_of_le (by decide)]
  exact BitVec.extractLsb'_eq_self

end Sys2Proof

namespace Sys2Proof.Machine

/-- A packed color is the word of its channels and the alpha `0xFF` (R72, R79). -/
theorem packOpaque_eq_ofBytes (r g b : Byte) : packOpaque r g b = Word.ofBytes r g b 0xFF := rfl

theorem packOpaque_byte_three (r g b : Byte) : (packOpaque r g b).byte 3 = 0xFF := by
  rw [packOpaque_eq_ofBytes, Word.ofBytes_byte_three]

/-- The second form of `chan` in R71. -/
theorem chan_eq (c : Nat) : chan c = (255 * c + 50) / 100 := by
  unfold chan
  congr 1
  omega

/-- A percentage scales to a byte (R71). -/
theorem chan_le (c : Nat) (h : c ≤ 100) : chan c ≤ 255 := by
  rw [chan_eq]
  omega

/-- So a channel keeps its value as a byte (R72). -/
theorem chan_byte_toNat (c : Nat) (h : c ≤ 100) : (BitVec.ofNat 8 (chan c)).toNat = chan c :=
  (BitVec.toNat_ofNat _ _).trans (Nat.mod_eq_of_lt (Nat.lt_succ_of_le (chan_le c h)))

/-- Without saturation the HLS converter is the RGB converter (R73). -/
theorem normalizeHls_zero (f : HlsFormat) (h l : Nat) : normalizeHls f h l 0 = normalizeRgb l l l := if_pos rfl

/-- With saturation the HLS converter packs its three channels (R77, R79). -/
theorem normalizeHls_of_ne_zero (f : HlsFormat) (h l : Nat) {s : Nat} (hs : s ≠ 0) :
    normalizeHls f h l s =
      hlsChannels f (hlsTerms f (percentFraction f l) (percentFraction f s)) (hueFraction f h) := if_neg hs

theorem normalizeRgb_byte_three (r g b : Nat) : (normalizeRgb r g b).byte 3 = 0xFF := packOpaque_byte_three _ _ _

theorem hlsChannels_byte_three (f : HlsFormat) (t : Ratio × Ratio) (hue : Ratio) :
    (hlsChannels f t hue).byte 3 = 0xFF := packOpaque_byte_three _ _ _

theorem normalizeHls_byte_three (f : HlsFormat) (h l s : Nat) : (normalizeHls f h l s).byte 3 = 0xFF := by
  by_cases hs : s = 0
  · rw [hs, normalizeHls_zero, normalizeRgb_byte_three]
  · rw [normalizeHls_of_ne_zero f h l hs, hlsChannels_byte_three]

/-- Settles O38: the packed word by its bytes, each of which holds its channel without loss. -/
theorem rgbScalesPercentages : Obligations.RgbScalesPercentages := by
  refine ⟨fun c h => ⟨chan_eq c, chan_le c h⟩, fun r g b hr hg hb => ?_⟩
  rw [normalizeRgb, packOpaque_eq_ofBytes, Word.ofBytes_toNat, chan_byte_toNat r hr, chan_byte_toNat g hg,
    chan_byte_toNat b hb]
  rfl

/-- Settles O39: both converters answer with a packed word. -/
theorem convertedColorsAreOpaque : Obligations.ConvertedColorsAreOpaque :=
  ⟨normalizeRgb_byte_three, normalizeHls_byte_three⟩

/-- Settles O40, the first case of the HLS converter. -/
theorem hlsWithoutSaturationIsGray : Obligations.HlsWithoutSaturationIsGray := normalizeHls_zero

end Sys2Proof.Machine
end

section
/-! SUPPORT. The assigning color introducer (R86): when it assigns, what it stores, and the state it leaves; and the
settled statement. -/

namespace Sys2Proof.Machine

variable {s : State}

/-- A palette length in its range makes every palette index a register (R29, R82). -/
theorem State.paletteOk_eq_true (h1 : 1 ≤ s.paletteLength) (h2 : s.paletteLength ≤ s.build.paletteSize) :
    s.paletteOk = true := by
  rw [State.paletteOk, decide_eq_true h1, decide_eq_true h2]
  rfl

/-- The introducers that assign: five parameters, a known color space, each channel in the bounds of that space (R86,
R87). -/
theorem State.isAssign_iff :
    s.isAssign = true ↔ s.pLength = 5 ∧
      (s.param 1 = 1 ∧ (s.param 2).toNat ≤ 360 ∨ s.param 1 = 2 ∧ (s.param 2).toNat ≤ 100) ∧
      (s.param 3).toNat ≤ 100 ∧ (s.param 4).toNat ≤ 100 := by
  by_cases h1 : s.param 1 = 1#32 <;> simp [State.isAssign, State.boundsOk, h1, and_assoc]

/-- Color space 1 is HLS, in the numeric format of the implementation (R80). -/
theorem State.assignedColor_hls (h : s.param 1 = 1) :
    s.assignedColor = normalizeHls Config.hlsFp (s.param 2).toNat (s.param 3).toNat (s.param 4).toNat := by
  rw [State.assignedColor, if_pos h, hlsColor_eq]

/-- Color space 2 is RGB (R80). -/
theorem State.assignedColor_rgb (h : s.param 1 = 2) :
    s.assignedColor = normalizeRgb (s.param 2).toNat (s.param 3).toNat (s.param 4).toNat := by
  rw [State.assignedColor, if_neg (by rw [h]; decide)]

/-- An assign writes one palette register and the color (R86). -/
theorem State.resolveColor_of_isAssign (h : s.isAssign = true) :
    s.resolveColor = { s.setWord .palette s.paletteIndex s.assignedColor with color := s.assignedColor } := by
  have h5 : s.pLength ≠ 1 := by
    rw [(State.isAssign_iff.1 h).1]
    decide
  rw [State.resolveColor, if_neg h5, if_pos h]

/-- The state after an assigning introducer: the fields it changes, its palette register, and the other palette bytes
(R86). Neither the selected color nor the new parameter list is part of the palette, so its bytes are those after the
word write. -/
theorem State.resolveColor_openList_of_isAssign (h : s.isAssign = true) (p : ParserState) :
    s.resolveColor.openList p = { s with
        color := s.assignedColor, palette := (s.resolveColor.openList p).palette, params := s.params.set 0 0
        pLength := 1, parser := p, pos := s.pos + 1 } ∧
      (s.resolveColor.openList p).wordAt .palette s.paletteIndex = s.assignedColor ∧
      ∀ x, x / 4 ≠ s.paletteIndex → (s.resolveColor.openList p).byteAt .palette x = s.byteAt .palette x := by
  rw [s.resolveColor_of_isAssign h]
  exact ⟨rfl, s.wordAt_setWord .palette s.paletteIndex s.assignedColor,
    s.byteAt_setWord_ne .palette s.paletteIndex s.assignedColor⟩

/-- Settles O23: the byte goes on from the resolved color, which assigns. -/
theorem colorAssign : Obligations.ColorAssign := by
  intro s k v hm hp hlo hhi h5 hv h3 h4 hk i p hi
  have hspace : s.param 1 = 1 ∧ (s.param 2).toNat ≤ 360 ∨ s.param 1 = 2 ∧ (s.param 2).toNat ≤ 100 :=
    hv.imp (fun ⟨h1, h2, _⟩ => ⟨h1, h2⟩) (fun ⟨h1, h2, _⟩ => ⟨h1, h2⟩)
  have ha : s.isAssign = true := State.isAssign_iff.2 ⟨h5, hspace, h3, h4⟩
  have hcolor : v = s.assignedColor := by
    rcases hv with ⟨h1, -, rfl⟩ | ⟨h1, -, rfl⟩
    · rw [State.assignedColor_hls h1]
    · rw [State.assignedColor_rgb h1]
  have hindex : k = s.paletteIndex := hk
  obtain ⟨hbang, hhash⟩ := exec_bang_hash_color s hm hp (State.paletteOk_eq_true hlo hhi)
  have hexec : exec i s = .next (s.resolveColor.openList p) := by
    rcases hi with ⟨rfl, rfl⟩ | ⟨rfl, rfl⟩
    · exact hbang
    · exact hhash
  rw [hcolor, hindex]
  exact ⟨_, hexec, State.resolveColor_openList_of_isAssign ha p⟩

end Sys2Proof.Machine
end

section
/-! SUPPORT. The color introducers that write no palette register (R85, R88), and a SIXEL that ends an introducer
(R116, R130); and the settled statements. -/

namespace Sys2Proof.Machine

variable {s : State}

/-- What an assign may not have (R87, R88): each reason denies one part of `State.isAssign_iff`. -/
theorem State.isAssign_eq_false
    (h : s.pLength ≠ 5 ∨ (s.param 1 ≠ 1 ∧ s.param 1 ≠ 2) ∨ (s.param 1 = 1 ∧ 360 < (s.param 2).toNat) ∨
      (s.param 1 = 2 ∧ 100 < (s.param 2).toNat) ∨ 100 < (s.param 3).toNat ∨ 100 < (s.param 4).toNat) :
    s.isAssign = false := by
  refine Bool.eq_false_iff.2 fun ha => ?_
  obtain ⟨h5, hspace, h3, h4⟩ := State.isAssign_iff.1 ha
  rcases h with hlength | ⟨hne1, hne2⟩ | ⟨heq1, hover⟩ | ⟨heq2, hover⟩ | hover | hover
  · exact hlength h5
  · exact hspace.elim (fun h => hne1 h.1) fun h => hne2 h.1
  · rcases hspace with ⟨-, hle⟩ | ⟨heq2, -⟩
    · omega
    · exact absurd (heq1.symm.trans heq2) (by decide)
  · rcases hspace with ⟨heq1, -⟩ | ⟨-, hle⟩
    · exact absurd (heq1.symm.trans heq2) (by decide)
    · omega
  · omega
  · omega

/-- A select takes the color from the palette (R85). -/
theorem State.resolveColor_of_select (h : s.pLength = 1) :
    s.resolveColor = { s with color := s.wordAt .palette s.paletteIndex } := by
  rw [State.resolveColor, if_pos h]

/-- An introducer that neither selects nor assigns resolves to nothing (R88). -/
theorem State.resolveColor_of_rejected (h1 : s.pLength ≠ 1) (ha : s.isAssign = false) : s.resolveColor = s := by
  rw [State.resolveColor, if_neg h1, ha, if_neg Bool.false_ne_true]

/-- An open color introducer with a legal palette is resolved, and the byte rule goes on (R84). -/
theorem State.resolveThen_of_paletteOk (hp : s.parser = .color) (hk : s.paletteOk = true) (k : State → Result) :
    s.resolveThen k = k s.resolveColor := by
  rw [State.resolveThen, if_pos hp, if_pos hk]

/-- SIXEL in M1, state Color goes on as in state Data (R116). -/
theorem exec_sixel_m1_color (c : BitVec 6) (hm : s.mode = .m1) (hp : s.parser = .color) (hk : s.paletteOk = true) :
    exec (.sixel c) s = .next ({ s.resolveColor with parser := .data }.sixelDataM1 c) := by
  simp only [exec, execSixel, hm, hp, State.resolveThen_of_paletteOk hp hk]

/-- SIXEL in M2, state Color goes on as in state Data (R130). -/
theorem exec_sixel_m2_color (c : BitVec 6) (hm : s.mode = .m2) (hp : s.parser = .color) (hk : s.paletteOk = true) :
    exec (.sixel c) s = .next ({ s.resolveColor with parser := .data }.sixelDataM2 c) := by
  simp only [exec, execSixel, hm, hp, State.resolveThen_of_paletteOk hp hk]

/-- Settles O24: the resolution is the identity, so the byte only opens its parameter list. -/
theorem colorIntroducerRejected : Obligations.ColorIntroducerRejected := by
  intro s hm hp hlo hhi h1 hreason
  have hexec := exec_bang_hash_color s hm hp (State.paletteOk_eq_true hlo hhi)
  rw [State.resolveColor_of_rejected h1 (State.isAssign_eq_false hreason)] at hexec
  exact hexec

/-- Settles O20: in each committed mode both sides are the Data rule of that mode, which the resolution keeps. -/
theorem sixelResolvesAnOpenColor : Obligations.SixelResolvesAnOpenColor := by
  intro c s hm hp hlo hhi
  have hk : s.paletteOk = true := State.paletteOk_eq_true hlo hhi
  have hmode : s.resolveColor.mode = s.mode := s.resolveColor_mode
  cases h : s.mode with
  | undecided => exact absurd h hm
  | m1 =>
    exact (exec_sixel_m1_color c h hp hk).trans
      (exec_sixel_m1_data { s.resolveColor with parser := .data } c (hmode.trans h) rfl).symm
  | m2 =>
    exact (exec_sixel_m2_color c h hp hk).trans
      (exec_sixel_m2_data { s.resolveColor with parser := .data } c (hmode.trans h) rfl).symm

/-- Settles O22: the byte opens its parameter list from the selected color. -/
theorem colorSelect : Obligations.ColorSelect := by
  intro s hm hp hlo hhi h1
  have hexec := exec_bang_hash_color s hm hp (State.paletteOk_eq_true hlo hhi)
  rw [State.resolveColor_of_select h1] at hexec
  exact hexec

end Sys2Proof.Machine
end

section
/-! SUPPORT. The paint kernels slot by slot (R90 to R94): which slots of the rows a kernel writes, what their bytes
become, and that every other byte stays; `put_wide` against four `put_single`; and the settled statements. -/

namespace Sys2Proof

/-- The bytes of a word put together from bytes are those bytes (R46). -/
theorem Word.ofBytes_bytes (b0 b1 b2 b3 : Byte) : (Word.ofBytes b0 b1 b2 b3).bytes = [b0, b1, b2, b3] := by
  have hbyte : ∀ k, k < 4 → (Word.ofBytes b0 b1 b2 b3).byte k = [b0, b1, b2, b3].getD k 0 := by
    intro k hk
    have hval := Word.ofBytes_toNat b0 b1 b2 b3
    have h0 := b0.isLt
    have h1 := b1.isLt
    have h2 := b2.isLt
    have h3 := b3.isLt
    apply BitVec.eq_of_toNat_eq
    rw [Word.byte, BitVec.extractLsb'_toNat, Nat.shiftRight_eq_div_pow, hval]
    match k, hk with
    | 0, _ => simp; omega
    | 1, _ => simp; omega
    | 2, _ => simp; omega
    | 3, _ => simp; omega
  rw [Word.bytes, hbyte 0 (by decide), hbyte 1 (by decide), hbyte 2 (by decide), hbyte 3 (by decide)]
  rfl

/-- The bytes of four words in a row: byte `j` of word `k` stands at `4 * k + j` (R46). -/
theorem Word.bytes_four_getElem? (f : Nat → Word) {k j : Nat} (hk : k < 4) (hj : j < 4) :
    ((f 0).bytes ++ (f 1).bytes ++ (f 2).bytes ++ (f 3).bytes)[4 * k + j]? = some ((f k).byte j) := by
  have hofFn : (f 0).bytes ++ (f 1).bytes ++ (f 2).bytes ++ (f 3).bytes =
      List.ofFn fun x : Fin 16 => (f (x / 4)).byte (x % 4) := rfl
  rw [hofFn, List.getElem?_ofFn, dif_pos (by omega), show (4 * k + j) / 4 = k by omega,
    show (4 * k + j) % 4 = j by omega]

end Sys2Proof

namespace Sys2Proof.Machine

variable (s : State)

/-- Byte `j` of a word element is the byte of its space at that offset (R46). -/
theorem State.wordAt_byte (sp : Space) (i : Nat) {j : Nat} (hj : j < 4) :
    (s.wordAt sp i).byte j = s.byteAt sp (4 * i + j) := by
  have h := Word.bytes_getElem? (s.wordAt sp i) j hj
  rw [State.wordAt, Word.ofBytes_bytes] at h
  match j, hj with
  | 0, _ => exact (Option.some.inj h).symm
  | 1, _ => exact (Option.some.inj h).symm
  | 2, _ => exact (Option.some.inj h).symm
  | 3, _ => exact (Option.some.inj h).symm

/-- A byte inside a write reads as the byte of the list at its place. -/
theorem State.byteAt_writeBytes_of_getElem? {sp : Space} {a x : Nat} {bs : List Byte} {v : Byte} (hx : a ≤ x)
    (h : bs[x - a]? = some v) : (s.writeBytes sp a bs).byteAt sp x = v := by
  obtain ⟨hlen, hv⟩ := List.getElem?_eq_some_iff.1 h
  rw [State.byteAt_writeBytes, dif_pos ⟨hx, by omega⟩, hv]

/-- Two changes of the row buffers only, one after the other, are one. -/
theorem State.rowbufOnly_trans {s t u : State} (h : t = { s with rowbuf := t.rowbuf })
    (h' : u = { t with rowbuf := u.rowbuf }) : u = { s with rowbuf := u.rowbuf } :=
  h'.trans (by rw [h])

/-! The kernels of one value, slot by slot -/

/-- A paint of a run that stays in its row, or of an empty one, byte by byte of a slot. -/
theorem State.painted.byteAt_pixel {s t : State} {c : BitVec 6} {lo n : Nat} {w : Word} (h : s.painted t c lo n w)
    (hn : n = 0 ∨ lo + n ≤ s.build.rowStride) {r i j : Nat} (hr : r < 6) (hi : i < s.build.rowStride) (hj : j < 4) :
    t.byteAt .rowbuf (pixelOffset s.build r i + j) =
      if c.getLsbD r = true ∧ lo ≤ i ∧ i < lo + n then w.byte j
      else s.byteAt .rowbuf (pixelOffset s.build r i + j) := by
  have hrun : inRun s.build c lo n (pixelOffset s.build r i + j) ↔ c.getLsbD r = true ∧ lo ≤ i ∧ i < lo + n := by
    rcases hn with rfl | hn
    · exact iff_of_false (not_inRun_zero _ _ _ _) (by omega)
    · exact inRun_pixel s.build c lo n r i j hr hi hj hn
  have hbyte : (pixelOffset s.build r i + j) % 4 = j := by rw [pixelOffset]; omega
  obtain ⟨hin, hout⟩ := h (pixelOffset s.build r i + j)
  split
  · next hp => rw [hin (hrun.2 hp), hbyte]
  · next hp => exact hout fun hx => hp (hrun.1 hx)

/-- The run of `put_run` is cut at the right edge (R91). -/
theorem State.runLength_fits (n col : Nat) :
    s.runLength n col = 0 ∨ col + s.runLength n col ≤ s.build.rowStride := by
  rw [State.runLength, Build.rowStride]
  split <;> omega

/-- `put_run` by the bytes of a slot (R91). -/
theorem State.putRun_byteAt (c : BitVec 6) (w : Word) (n col : Nat) {r i j : Nat} (hr : r < 6)
    (hi : i < s.build.rowStride) (hj : j < 4) :
    (s.putRun c w n col).byteAt .rowbuf (pixelOffset s.build r i + j) =
      if c.getLsbD r = true ∧ col ≤ i ∧ i < col + s.runLength n col then w.byte j
      else s.byteAt .rowbuf (pixelOffset s.build r i + j) :=
  (s.paintRows_painted c col (s.runLength n col) w).byteAt_pixel (s.runLength_fits n col) hr hi hj

/-- `put_single` by the bytes of a slot (R90). -/
theorem State.putSingle_byteAt (c : BitVec 6) (w : Word) (col : Nat) {r i j : Nat} (hr : r < 6)
    (hi : i < s.build.rowStride) (hj : j < 4) :
    (s.putSingle c w col).byteAt .rowbuf (pixelOffset s.build r i + j) =
      if c.getLsbD r = true ∧ i = col ∧ col < s.build.maxWidth then w.byte j
      else s.byteAt .rowbuf (pixelOffset s.build r i + j) := by
  have hpaint := s.putSingle_painted c w col
  by_cases hcol : col < s.build.maxWidth
  · rw [if_pos hcol] at hpaint
    rw [hpaint.byteAt_pixel (.inr (by rw [Build.rowStride]; omega)) hr hi hj]
    exact if_congr (and_congr_right fun _ => by omega) rfl rfl
  · rw [if_neg hcol] at hpaint
    rw [hpaint.byteAt_pixel (.inl rfl) hr hi hj, if_neg (by omega), if_neg fun h => hcol h.2.2]

/-- The mask of all six rows. -/
theorem getLsbD_allRows {r : Nat} (hr : r < 6) : (63 : BitVec 6).getLsbD r = true :=
  (BitVec.getLsbD_allOnes (v := 6)).trans (decide_eq_true hr)

/-- `fill_row_range` by the bytes of a slot (R94). -/
theorem State.fillRowRange_byteAt {lo hi : Nat} (hle : lo ≤ hi) (hcap : hi ≤ s.build.rowCap) {r i j : Nat}
    (hr : r < 6) (hi' : i < s.build.rowStride) (hj : j < 4) :
    (s.fillRowRange lo hi).byteAt .rowbuf (pixelOffset s.build r i + j) =
      if lo ≤ i ∧ i < hi then s.fillColor.byte j else s.byteAt .rowbuf (pixelOffset s.build r i + j) := by
  have hfits : lo + (hi - lo) ≤ s.build.rowStride := (Nat.add_sub_cancel' hle).trans_le hcap
  rw [State.fillRowRange_eq, (s.paintRows_painted 63 lo (hi - lo) s.fillColor).byteAt_pixel (.inr hfits) hr hi' hj,
    Nat.add_sub_cancel' hle]
  exact if_congr (and_iff_right (getLsbD_allRows hr)) rfl rfl

/-! `put_wide` (R92): the blend of a lane, a row, the six rows -/

/-- The lane mask is all ones exactly if the row's bit of the lane's byte is set. -/
theorem wideMask_eq (agg : Word) {i : Nat} (j : Nat) (hi : i < 32) :
    wideMask agg i j = if (agg.byte j).getLsbD i = true then BitVec.allOnes 32 else 0 := by
  have hlane : (wideLane agg j).getLsbD i = (agg.byte j).getLsbD i := by
    rw [wideLane, BitVec.getLsbD_setWidth, decide_eq_true hi, Bool.true_and]
  have htwo : (1 : Word) <<< i = BitVec.twoPow 32 i := (BitVec.twoPow_eq 32 i).symm
  have hne : BitVec.twoPow 32 i ≠ 0 := fun h => absurd (congrArg (·.getLsbD i) h) (by simp [hi])
  have hand : wideLane agg j &&& (1 : Word) <<< i = (1 : Word) <<< i ↔ (agg.byte j).getLsbD i = true := by
    rw [htwo, BitVec.and_twoPow, hlane]
    split
    · next h => exact iff_of_true rfl h
    · next h => exact iff_of_false hne.symm h
  exact if_congr hand rfl rfl

/-- The blend takes the color where the row's bit of the lane's byte is set, and the old pixel elsewhere. -/
theorem State.wideLaneValue_eq (agg color : Word) (col : Nat) {i : Nat} (j : Nat) (hi : i < 32) :
    s.wideLaneValue agg color col i j =
      if (agg.byte j).getLsbD i = true then color else s.wordAt .rowbuf (pixelIndex s.build i (col + j)) := by
  rw [State.wideLaneValue, wideMask_eq agg j hi]
  split
  · rw [BitVec.allOnes_and, BitVec.not_allOnes, BitVec.zero_and, BitVec.or_zero]
  · exact (congrArg₂ (· ||| ·) BitVec.zero_and BitVec.allOnes_and).trans BitVec.zero_or

/-- The bytes that one iteration for row `k` stores to are those of the four slots of its group. -/
theorem wideRow_covers {b : Build} {col k r i j : Nat} (hcol : col + 4 ≤ b.rowStride) (hk : k < 6) (hr : r < 6)
    (hi : i < b.rowStride) (hj : j < 4) :
    (pixelOffset b k col ≤ pixelOffset b r i + j ∧ pixelOffset b r i + j < pixelOffset b k col + 16) ↔
      r = k ∧ col ≤ i ∧ i < col + 4 := by
  have hmask : ∀ q, (BitVec.twoPow 6 k).getLsbD q = true ↔ q = k := by
    intro q
    rw [BitVec.getLsbD_twoPow, decide_eq_true hk, Bool.true_and, decide_eq_true_iff, eq_comm]
  rw [← hmask r, ← inRun_pixel b (BitVec.twoPow 6 k) col 4 r i j hr hi hj hcol]
  constructor
  · exact fun ⟨hl, hu⟩ => ⟨k, hk, (hmask k).2 rfl, hl, hu⟩
  · rintro ⟨q, -, hq, hl, hu⟩
    rw [(hmask q).1 hq] at hl hu
    exact ⟨hl, hu⟩

/-- One iteration of `put_wide` by the bytes of a slot: in its row it colors the slots of the group whose lane has the
row's bit set, and stores the other pixels as they were. -/
theorem State.wideRow_byteAt (agg color : Word) {col k r i j : Nat} (hcol : col + 4 ≤ s.build.rowStride) (hk : k < 6)
    (hr : r < 6) (hi : i < s.build.rowStride) (hj : j < 4) :
    (s.wideRow agg color col k).byteAt .rowbuf (pixelOffset s.build r i + j) =
      if r = k ∧ col ≤ i ∧ i < col + 4 ∧ (agg.byte (i - col)).getLsbD r = true then color.byte j
      else s.byteAt .rowbuf (pixelOffset s.build r i + j) := by
  have hcover := wideRow_covers hcol hk hr hi hj
  by_cases hin : r = k ∧ col ≤ i ∧ i < col + 4
  · obtain ⟨hl, -⟩ := hcover.2 hin
    obtain ⟨rfl, hci, hic⟩ := hin
    have hplace : pixelOffset s.build r i + j - pixelOffset s.build r col = 4 * (i - col) + j := by
      simp only [pixelOffset, pixelIndex]; omega
    have hvalue : (s.wideLaneValue agg color col r (i - col)).byte j =
        if (agg.byte (i - col)).getLsbD r = true then color.byte j
        else s.byteAt .rowbuf (pixelOffset s.build r i + j) := by
      rw [s.wideLaneValue_eq agg color col (i - col) (by omega), Nat.add_sub_cancel' hci, apply_ite (Word.byte · j),
        s.wordAt_byte .rowbuf (pixelIndex s.build r i) hj, pixelOffset]
    rw [State.wideRow, s.byteAt_writeBytes_of_getElem? hl
      (hplace ▸ Word.bytes_four_getElem? (s.wideLaneValue agg color col r) (by omega) hj), hvalue]
    exact if_congr (by simp [hci, hic]) rfl rfl
  · rw [if_neg fun ⟨hrow, hl, hu, _⟩ => hin ⟨hrow, hl, hu⟩]
    exact (s.byteAt_writeBytes ..).trans (dif_neg fun h => hin (hcover.1 h))

/-- The iterations of `put_wide` for a list of rows change the row buffers only. -/
theorem State.wideRows_only (agg color : Word) (col : Nat) (rows : List Nat) :
    rows.foldl (fun t k => t.wideRow agg color col k) s =
      { s with rowbuf := (rows.foldl (fun t k => t.wideRow agg color col k) s).rowbuf } := by
  induction rows generalizing s with
  | nil => rfl
  | cons k rows ih => exact ih (s.wideRow agg color col k)

/-- The iterations of `put_wide` for a list of rows, by the bytes of a slot. -/
theorem State.wideRows_byteAt (agg color : Word) {col r i j : Nat} (rows : List Nat) (hrows : ∀ k ∈ rows, k < 6)
    (hcol : col + 4 ≤ s.build.rowStride) (hr : r < 6) (hi : i < s.build.rowStride) (hj : j < 4) :
    (rows.foldl (fun t k => t.wideRow agg color col k) s).byteAt .rowbuf (pixelOffset s.build r i + j) =
      if r ∈ rows ∧ col ≤ i ∧ i < col + 4 ∧ (agg.byte (i - col)).getLsbD r = true then color.byte j
      else s.byteAt .rowbuf (pixelOffset s.build r i + j) := by
  induction rows generalizing s with
  | nil => exact (if_neg fun h => absurd h.1 List.not_mem_nil).symm
  | cons k rows ih =>
    rw [List.forall_mem_cons] at hrows
    obtain ⟨hk, hrows⟩ := hrows
    rw [List.foldl_cons]
    refine (ih (s.wideRow agg color col k) hrows hcol hi).trans ?_
    refine (congrArg (ite _ _) (s.wideRow_byteAt agg color hcol hk hr hi hj)).trans ?_
    rw [← ite_or]
    exact if_congr (by rw [← or_and_right, List.mem_cons, or_comm (a := r = k)]) rfl rfl

/-- `put_wide` changes the row buffers only. -/
theorem State.putWide_only (agg color : Word) (col : Nat) :
    s.putWide agg color col = { s with rowbuf := (s.putWide agg color col).rowbuf } :=
  s.wideRows_only agg color col [0, 1, 2, 3, 4, 5]

/-- `put_wide` by the bytes of a slot (R92). -/
theorem State.putWide_byteAt (agg color : Word) {col r i j : Nat} (hcol : col + 4 ≤ s.build.rowStride) (hr : r < 6)
    (hi : i < s.build.rowStride) (hj : j < 4) :
    (s.putWide agg color col).byteAt .rowbuf (pixelOffset s.build r i + j) =
      if col ≤ i ∧ i < col + 4 ∧ (agg.byte (i - col)).getLsbD r = true then color.byte j
      else s.byteAt .rowbuf (pixelOffset s.build r i + j) := by
  have hmem : ∀ k, k ∈ [0, 1, 2, 3, 4, 5] ↔ k < 6 := by intro k; simp; omega
  refine (s.wideRows_byteAt agg color [0, 1, 2, 3, 4, 5] (fun k => (hmem k).1) hcol hr hi hj).trans ?_
  exact if_congr (and_iff_right ((hmem r).2 hr)) rfl rfl

/-! The `put_single` of the lanes of a group (R92, R93) -/

/-- The `put_single` of a list of lanes: lane `k` paints slot `col + k` with byte `k` of the aggregate. -/
def State.putLanes (s : State) (agg color : Word) (col : Nat) (lanes : List Nat) : State :=
  lanes.foldl (fun t k => t.putSingle ((agg.byte k).setWidth 6) color (col + k)) s

/-- The `put_single` of a list of lanes change the row buffers only. -/
theorem State.putLanes_only (agg color : Word) (col : Nat) (lanes : List Nat) :
    s.putLanes agg color col lanes = { s with rowbuf := (s.putLanes agg color col lanes).rowbuf } := by
  induction lanes generalizing s with
  | nil => rfl
  | cons k lanes ih => exact State.rowbufOnly_trans (s.putSingle_only _ color (col + k)) (ih _)

/-- The `put_single` of a list of lanes, by the bytes of a slot. -/
theorem State.putLanes_byteAt (agg color : Word) {col r i j : Nat} (lanes : List Nat)
    (hlanes : ∀ k ∈ lanes, col + k < s.build.maxWidth) (hr : r < 6) (hi : i < s.build.rowStride) (hj : j < 4) :
    (s.putLanes agg color col lanes).byteAt .rowbuf (pixelOffset s.build r i + j) =
      if col ≤ i ∧ i - col ∈ lanes ∧ (agg.byte (i - col)).getLsbD r = true then color.byte j
      else s.byteAt .rowbuf (pixelOffset s.build r i + j) := by
  induction lanes generalizing s with
  | nil => exact (if_neg fun h => absurd h.2.1 List.not_mem_nil).symm
  | cons k lanes ih =>
    rw [List.forall_mem_cons] at hlanes
    obtain ⟨hk, hlanes⟩ := hlanes
    have hfirst := s.putSingle_byteAt ((agg.byte k).setWidth 6) color (col + k) hr hi hj
    have hcode : ((agg.byte k).setWidth 6).getLsbD r = (agg.byte k).getLsbD r := by
      rw [BitVec.getLsbD_setWidth, decide_eq_true hr, Bool.true_and]
    have hrest := ih (s.putSingle ((agg.byte k).setWidth 6) color (col + k))
    rw [State.putSingle_build] at hrest
    have hlane : (agg.byte k).getLsbD r = true ∧ i = col + k ∧ col + k < s.build.maxWidth ↔
        col ≤ i ∧ i - col = k ∧ (agg.byte (i - col)).getLsbD r = true := by
      constructor
      · rintro ⟨hbit, rfl, -⟩
        rw [Nat.add_sub_cancel_left]
        exact ⟨Nat.le_add_right col k, rfl, hbit⟩
      · rintro ⟨hle, rfl, hbit⟩
        exact ⟨hbit, (Nat.add_sub_cancel' hle).symm, hk⟩
    refine (hrest hlanes hi).trans ?_
    rw [hfirst, hcode, ← ite_or]
    exact if_congr (by rw [hlane, List.mem_cons]; tauto) rfl rfl

/-! The settled statements -/

/-- Settles O42, by the kernel's law for the bytes of a slot. -/
theorem putSinglePaintsOneSlot : Obligations.PutSinglePaintsOneSlot := by
  rintro s c w col t rfl
  refine ⟨s.putSingle_only c w col, fun r i j hr hi hj => ⟨fun h => ?_, fun h => ?_⟩⟩
  · rw [s.putSingle_byteAt c w col hr hi hj, if_pos h]
  · rw [s.putSingle_byteAt c w col hr hi hj, if_neg h]

/-- Settles O43: the cut of the run is the model's `runLength`. -/
theorem putRunPaintsItsSlots : Obligations.PutRunPaintsItsSlots := by
  rintro s c w n col m t rfl rfl
  refine ⟨s.putRun_only c w n col, fun r i j hr hi hj => ⟨fun h => ?_, fun h => ?_⟩⟩
  · exact (s.putRun_byteAt c w n col hr hi hj).trans (if_pos h)
  · exact (s.putRun_byteAt c w n col hr hi hj).trans (if_neg h)

/-- Settles O44. The lower bound of R94, which keeps the guard slots out, is not needed for what is written. -/
theorem fillRowRangeFillsItsSlots : Obligations.FillRowRangeFillsItsSlots := by
  rintro s lo hi t - hle hcap rfl
  refine ⟨s.paintRows_eq 63 lo (hi - lo) s.fillColor, fun r i j hr hi' hj => ⟨fun h => ?_, fun h => ?_⟩⟩
  · rw [s.fillRowRange_byteAt hle hcap hr hi' hj, if_pos h]
  · rw [s.fillRowRange_byteAt hle hcap hr hi' hj, if_neg h]

/-- Settles O46: both sides color the slots of the group whose lane has the row's bit set. That
the group is aligned (R93) is not needed for it. -/
theorem putWideIsFourPutSingles : Obligations.PutWideIsFourPutSingles := by
  rintro s agg color col t u - hcol rfl hu
  have hlanes : u = s.putLanes agg color col [0, 1, 2, 3] := hu
  have hmem : ∀ k, k ∈ [0, 1, 2, 3] ↔ k < 4 := by intro k; simp; omega
  have hroom : ∀ k ∈ [0, 1, 2, 3], col + k < s.build.maxWidth := by
    intro k hk
    have := (hmem k).1 hk
    omega
  rw [hlanes]
  refine ⟨s.putWide_only agg color col, s.putLanes_only agg color col _, fun r i j hr hi hj => ?_⟩
  rw [s.putWide_byteAt agg color (by rw [Build.rowStride]; omega) hr hi hj,
    s.putLanes_byteAt agg color [0, 1, 2, 3] hroom hr hi hj]
  refine if_congr (and_congr_right fun hle => and_congr_left fun _ => ?_) rfl rfl
  rw [hmem]
  omega

end Sys2Proof.Machine
end

section
/-! SUPPORT. The parameter bytes and the ignored bytes (43_parameters.md): the meaning each byte of these classes has in
every mode and state, what a digit and a separator do to the parameter registers; and the settled statements. -/

namespace Sys2Proof.Machine

/-! The meaning of the three classes (R96 to R98) -/

theorem exec_digit_eq (d : BitVec 4) (s : State) : exec (.digit d) s = .next (s.addDigit d).advance := rfl

theorem exec_semi_eq (s : State) : exec .semi s = .next s.openParam.advance := rfl

theorem exec_ignored_eq (s : State) : exec .ignored s = .next s.advance := rfl

/-! The parameter registers -/

/-- The block's 32-bit arithmetic on a parameter is the wrapping arithmetic of R96. -/
theorem State.accumulate_eq_ofNat (s : State) (d : BitVec 4) :
    s.accumulate d = BitVec.ofNat 32 ((s.param (s.pLength - 1)).toNat * 10 + d.toNat) := by
  rw [State.accumulate, BitVec.ofNat_add, BitVec.ofNat_mul, BitVec.ofNat_toNat, BitVec.ofNat_toNat,
    BitVec.setWidth_eq]
  rfl

/-- Below `PARAM_SIZE` a separator opens the next parameter (R97, R7). -/
theorem State.openParam_of_lt {s : State} (h : s.pLength < s.build.paramSize) :
    s.openParam = { s with params := s.params.set s.pLength 0, pLength := s.pLength + 1 } := if_pos h

/-- Past the last parameter a separator is ignored (R97). -/
theorem State.openParam_of_ge {s : State} (h : s.build.paramSize ≤ s.pLength) : s.openParam = s :=
  if_neg (Nat.not_lt.2 h)

/-! The settled statements -/

/-- Settles O9: DIGIT stores the accumulated parameter, whose value is `accumulate_eq_ofNat`. -/
theorem digitAccumulates : Obligations.DigitAccumulates := by
  intro d s
  rw [exec_digit_eq, ← s.accumulate_eq_ofNat d]
  rfl

/-- Settles O10, by whether a parameter is left to open. -/
theorem semiOpensAParameter : Obligations.SemiOpensAParameter := by
  refine fun s => ⟨fun hroom => ?_, fun hfull => ?_⟩
  · rw [exec_semi_eq, State.openParam_of_lt hroom]
    rfl
  · rw [exec_semi_eq, State.openParam_of_ge hfull]
    rfl

/-- Settles O11: IGNORED is `advance`. -/
theorem ignoredOnlyAdvances : Obligations.IgnoredOnlyAdvances := exec_ignored_eq

end Sys2Proof.Machine
end

section
/-! SUPPORT. The raster preamble (44_raster_preamble.md): the quote that opens the raster attributes, the registers each
of the three commits decides, the first clear and the MODE callback they share, and its answer; and the settled
statements. -/

namespace Sys2Proof.Machine

variable {s : State}

/-! QUOTE (R102) -/

theorem exec_quote_opens (hm : s.mode = .undecided) (hp : s.parser = .data) :
    exec .quote s = .next (s.openList .attr) := by
  simp only [exec, execQuote, hm, hp, if_true]

/-- Outside mode Undecided, state Data a quote has no effect (R102, R121, R135). -/
theorem exec_quote_skips (h : s.mode ≠ .undecided ∨ s.parser ≠ .data) : exec .quote s = .next s.advance := by
  change execQuote s = _
  unfold execQuote
  split
  · next hm => exact if_neg (h.resolve_left (not_not.2 hm))
  · rfl
  · rfl

/-! What a commit does, by the parser state (R105 to R107) -/

theorem State.commit_of_data (hp : s.parser = .data) : s.commit = .next s.commitPlain.commitCommon := by
  rw [State.commit, hp]

theorem State.commit_of_raster (hp : s.parser = .attr) (hn : 4 ≤ s.pLength) :
    s.commit = .next s.commitRaster.commitCommon := by
  rw [State.commit, hp]
  exact if_pos hn

theorem State.commit_of_malformed (hp : s.parser = .attr) (hn : s.pLength < 4) :
    s.commit = .next s.commitMalformed.commitCommon := by
  rw [State.commit, hp]
  exact if_neg (Nat.not_le.2 hn)

/-- With `truncate` the raster attributes give the band its width and height (R106). -/
theorem State.commitRaster_of_truncate (ht : s.truncate = true) :
    s.commitRaster = { s with
      rNum := s.param 0, rDenom := s.param 1, rWidth := s.param 2, rHeight := s.param 3, level := .l2, mode := .m2
      width := min (s.param 2).toNat s.build.maxWidth + 4, height := s.param 3 } := by
  simp only [State.commitRaster, ht, if_true]

/-- Without `truncate` the raster attributes leave the width open (R106). -/
theorem State.commitRaster_of_not_truncate (ht : s.truncate = false) :
    s.commitRaster = { s with
      rNum := s.param 0, rDenom := s.param 1, rWidth := s.param 2, rHeight := s.param 3, level := .l2, mode := .m1
      width := 0, height := 0 } := by
  simp only [State.commitRaster, ht, Bool.false_eq_true, if_false]

/-! The common end of the commits (R108) -/

theorem State.resetLine_of_m1 (hm : s.mode = .m1) : s.resetLine = s.resetLineM1 := if_pos hm

theorem State.resetLine_of_m2 (hm : s.mode = .m2) : s.resetLine = s.resetLineM2 := if_neg (ne_m1_of_m2 hm)

/-- The state in which the common end of a commit clears the first band: back in state Data, with its parameters
reset (R108). -/
def State.backToData (s : State) : State := { s with parser := .data }.resetParams

theorem State.commitCommon_eq (s : State) : s.commitCommon = s.backToData.resetLine.raiseMode s.mode := rfl

/-- A commit to M1 clears the first chunk and raises MODE 1 (R108, R139, R145). -/
theorem State.commitCommon_of_m1 (hb : 128 ≤ s.build.maxWidth) (hm : s.mode = .m1) (hw : s.width = 0) :
    s.commitCommon = { s with
      parser := .data, params := s.params.set 0 0, pLength := 1, rowbuf := s.commitCommon.rowbuf
      clearedWidth := 132, phase := .waitMode, out := .callback .mode 1 :: s.out } ∧
    s.painted s.commitCommon 63 4 128 s.fillColor := by
  obtain ⟨m, hline, hread, -, -⟩ := s.backToData.resetLineM1_spec hw hb
  have hcommon : s.commitCommon = { s.backToData with rowbuf := m, clearedWidth := 132 }.raiseMode .m1 := by
    rw [s.commitCommon_eq, State.resetLine_of_m1 (s := s.backToData) hm, hline, hm]
  rw [hcommon]
  exact ⟨rfl, State.painted_of_read rfl hread⟩

/-- A commit to M2 clears the whole width of the band and raises MODE 2 (R108, R140, R145). -/
theorem State.commitCommon_of_m2 (hm : s.mode = .m2) :
    s.commitCommon = { s with
      parser := .data, params := s.params.set 0 0, pLength := 1, rowbuf := s.commitCommon.rowbuf
      phase := .waitMode, out := .callback .mode 2 :: s.out } ∧
    s.painted s.commitCommon 63 4 (s.width - 4) s.fillColor := by
  obtain ⟨m, hpaint, hread, -, -⟩ := s.backToData.paintRows_spec 63 4 (s.width - 4) s.fillColor
  have hline : s.backToData.resetLineM2 = { s.backToData with rowbuf := m } := hpaint
  have hcommon : s.commitCommon = { s.backToData with rowbuf := m }.raiseMode .m2 := by
    rw [s.commitCommon_eq, State.resetLine_of_m2 (s := s.backToData) hm, hline, hm]
  rw [hcommon]
  exact ⟨rfl, State.painted_of_read rfl hread⟩

/-! The answer to MODE (R108, R109) -/

theorem exec_answer_of_waitMode (hp : s.phase = .waitMode) (v : Word) :
    exec (.answer v) s = .next (s.answerMode v) := by
  simp only [exec, execAnswer, hp]

theorem State.answerMode_zero (s : State) : s.answerMode 0 = s.resume := rfl

theorem State.answerMode_of_ne_zero (s : State) {v : Word} (hv : v ≠ 0) :
    s.answerMode v = { s.resume with abort := true }.complete := if_pos (decide_eq_true hv)

/-! The settled statements -/

/-- Settles O13: the plain registers are those of L1 and M1, and the common end goes on from them. -/
theorem commitWithoutRasterAttributes : Obligations.CommitWithoutRasterAttributes := by
  intro i s hi hb hm hp
  have hexec := (exec_of_commits i s hi hm).trans (State.commit_of_data hp)
  exact ⟨_, hexec, State.commitCommon_of_m1 (s := s.commitPlain) hb.1.2 rfl rfl⟩

/-- Settles O14: `truncate` decides which mode's common end the raster registers meet. -/
theorem commitWithRasterAttributes : Obligations.CommitWithRasterAttributes := by
  intro i s hi hb hm hp hn
  have hexec := (exec_of_commits i s hi hm).trans (State.commit_of_raster hp hn)
  refine ⟨fun ht => ?_, fun ht => ?_⟩
  · rw [State.commitRaster_of_truncate ht] at hexec
    exact ⟨_, hexec, State.commitCommon_of_m2 rfl⟩
  · rw [State.commitRaster_of_not_truncate ht] at hexec
    exact ⟨_, hexec, State.commitCommon_of_m1 hb.1.2 rfl rfl⟩

/-- Settles O15: a malformed preamble keeps the parameters present and ends as the plain commit does. -/
theorem commitWithMalformedRasterAttributes : Obligations.CommitWithMalformedRasterAttributes := by
  intro i s hi hb hm hp hn
  have hexec := (exec_of_commits i s hi hm).trans (State.commit_of_malformed hp hn)
  exact ⟨_, hexec, State.commitCommon_of_m1 (s := s.commitMalformed) hb.1.2 rfl rfl⟩

/-- Settles O12, by whether the quote opens the raster attributes. -/
theorem quoteOpensTheRasterAttributes : Obligations.QuoteOpensTheRasterAttributes :=
  fun _ => ⟨exec_quote_opens, exec_quote_skips⟩

/-- Settles O29: 0 resumes, anything else resumes and completes with the abort flag set. -/
theorem answerToTheModeCallback : Obligations.AnswerToTheModeCallback := by
  intro v s hp
  have hexec := exec_answer_of_waitMode hp v
  refine ⟨fun hv => ⟨_, hexec, ?_⟩, fun hv => ⟨_, hexec, ?_⟩⟩
  · rw [hv, s.answerMode_zero]
    rfl
  · rw [s.answerMode_of_ne_zero hv]
    rfl

end Sys2Proof.Machine
end

section
/-! SUPPORT. Mode M1 (45_mode_m1.md), with the rules it shares with M2: the sixel that clears before it paints, the
carriage return, the band end, its answer, and what the band payload holds; and the settled statements. -/

namespace Sys2Proof.Machine

variable {s t u : State}

/-! SIXEL: the clear on demand, then the paint (R114, R115) -/

/-- A clear and then a paint over the same build, as `clearedAndPainted` says it. -/
theorem State.painted.clearedAndPainted {lo hi col n : Nat} {c : BitVec 6} {fill w : Word}
    (hclear : s.painted t 63 lo (hi - lo) fill) (hpaint : t.painted u c col n w) (hb : t.build = s.build) :
    s.clearedAndPainted u lo hi fill c col n w := by
  intro x
  obtain ⟨hfill, hkeep⟩ := hclear x
  obtain ⟨hin, hout⟩ := hpaint x
  rw [hb] at hin hout
  exact ⟨hin, fun hx hc => (hout hx).trans (hfill hc), fun hx hc => (hout hx).trans (hkeep hc)⟩

/-- The clear on demand followed by a paint that writes the row buffers only. -/
theorem State.clearUpto_then_painted {limit col n : Nat} {c : BitVec 6} {w : Word} (hl : limit ≤ s.build.maxWidth)
    (hu : u = { s.clearUpto limit with rowbuf := u.rowbuf }) (hpaint : (s.clearUpto limit).painted u c col n w) :
    u = { s with rowbuf := u.rowbuf, clearedWidth := clearedAfter s.build s.clearedWidth limit } ∧
    s.clearedAndPainted u s.clearedWidth (clearedAfter s.build s.clearedWidth limit) s.fillColor c col n w := by
  obtain ⟨hreach, hclear⟩ := s.clearUpto_painted limit hl
  refine ⟨?_, hclear.clearedAndPainted hpaint (s.clearUpto_build limit)⟩
  rw [s.clearUpto_only limit, hreach] at hu
  exact hu

/-- `put_run` paints its run, cut at the right edge (R91). -/
theorem State.putRun_painted (s : State) (c : BitVec 6) (w : Word) (n col : Nat) :
    s.painted (s.putRun c w n col) c col (s.runLength n col) w :=
  s.paintRows_painted c col (s.runLength n col) w

/-- SIXEL in state Data (R114): what it changes, and every byte of the row buffers. -/
theorem State.sixelDataM1_spec (s : State) (c : BitVec 6) :
    s.sixelDataM1 c = { s with
      rowbuf := (s.sixelDataM1 c).rowbuf
      clearedWidth := clearedAfter s.build s.clearedWidth (min (s.cursor + 1) s.build.maxWidth)
      cursor := min (s.cursor + 1) s.build.maxWidth
      pos := s.pos + 1 } ∧
    s.clearedAndPainted (s.sixelDataM1 c) s.clearedWidth (s.sixelDataM1 c).clearedWidth s.fillColor c s.cursor
      (if s.cursor < s.build.maxWidth then 1 else 0) s.color := by
  have hpaint := (s.clearUpto (min (s.cursor + 1) s.build.maxWidth)).putSingle_painted c s.color s.cursor
  rw [State.clearUpto_build] at hpaint
  obtain ⟨hframe, hbytes⟩ :=
    State.clearUpto_then_painted (Nat.min_le_right _ _) (State.putSingle_only _ c s.color s.cursor) hpaint
  have hsixel : s.sixelDataM1 c = _ := congrArg (fun u : State => (u.advanceCursor 1).advance) hframe
  rw [hsixel]
  exact ⟨rfl, hbytes⟩

/-- SIXEL in state Compression (R115): what it changes, and every byte of the row buffers. -/
theorem State.sixelRunM1_spec (s : State) (c : BitVec 6) :
    s.sixelRunM1 c = { s with
      rowbuf := (s.sixelRunM1 c).rowbuf
      clearedWidth := clearedAfter s.build s.clearedWidth (min (s.cursor + s.repeatCount) s.build.maxWidth)
      cursor := min (s.cursor + s.repeatCount) s.build.maxWidth
      parser := .data
      pos := s.pos + 1 } ∧
    s.clearedAndPainted (s.sixelRunM1 c) s.clearedWidth (s.sixelRunM1 c).clearedWidth s.fillColor c s.cursor
      (s.runLength s.repeatCount s.cursor) s.color := by
  have hpaint :=
    (s.clearUpto (min (s.cursor + s.repeatCount) s.build.maxWidth)).putRun_painted c s.color s.repeatCount s.cursor
  rw [State.runLength, State.clearUpto_build] at hpaint
  obtain ⟨hframe, hbytes⟩ :=
    State.clearUpto_then_painted (Nat.min_le_right _ _) (State.putRun_only _ c s.color s.repeatCount s.cursor) hpaint
  have hsixel : s.sixelRunM1 c = _ :=
    congrArg (fun u : State => { u.advanceCursor s.repeatCount with parser := .data }.advance) hframe
  rw [hsixel]
  exact ⟨rfl, hbytes⟩

/-! The carriage return and the band end (R119, R120, R133, R134) -/

theorem exec_dollar_of_m1 (hm : s.mode = .m1) :
    exec .dollar s = .next { s.updateRealWidth with cursor := 4 }.advance := by
  simp only [exec, execDollar, hm]

theorem exec_dollar_of_m2 (hm : s.mode = .m2) : exec .dollar s = .next { s with cursor := 4 }.advance := by
  simp only [exec, execDollar, hm]

theorem exec_dash_of_m1 (hm : s.mode = .m1) : exec .dash s = .next s.emitBandM1 := by
  simp only [exec, execDash, hm]

theorem exec_dash_of_m2 (hm : s.mode = .m2) : exec .dash s = .next (s.raiseBand (s.width - 4)) := by
  simp only [exec, execDash, hm]

/-! The answer to BAND in M1 (R120, R144, R166) -/

theorem exec_answer_of_waitBand_m1 (hp : s.phase = .waitBand) (hm : s.mode = .m1) (v : Word) :
    exec (.answer v) s = .next (s.answerBandM1 v) := by
  simp only [exec, execAnswer, hp, hm]

theorem State.answerBandM1_zero (s : State) :
    s.answerBandM1 0 = { s.resume.resetLineM1 with cursor := 4, realWidth := 4 }.advance := rfl

theorem State.answerBandM1_of_ne_zero (s : State) {v : Word} (hv : v ≠ 0) :
    s.answerBandM1 v = { s.resume with abort := true, cursor := 4, realWidth := 4 }.complete :=
  if_pos (decide_eq_true hv)

/-! The band payload (R123, R137) -/

/-- The slots of a band that ends at or before the written frontier are written. -/
theorem State.rowsWritten.payload {hi w : Nat} (h : s.rowsWritten hi) (hw : 4 + w ≤ hi) :
    ∀ r x j, r < 6 → x < w → j < 4 → (s.rowbuf.read? (pixelOffset s.build r (4 + x) + j)).isSome = true :=
  fun r x j hr hx hj => h r (4 + x) j hr (by omega) (by omega) hj

/-- In M1 the band ends behind the frontier of the clear (R123). -/
theorem State.RegsOk.bandM1_le (h : s.RegsOk) (hm : s.mode = .m1) :
    4 + (s.emitBandM1.realWidth - 4) ≤ s.clearedWidth := by
  obtain ⟨hcursor, hreal⟩ := h.frontier hm
  have hmin := h.clearedWidth.1
  change 4 + (min (max s.realWidth s.cursor) s.build.maxWidth - 4) ≤ s.clearedWidth
  omega

/-! The settled statements -/

/-- Settles O16: state Data is the clear and one column. -/
theorem sixelInM1Data : Obligations.SixelInM1Data :=
  fun c s hm hp => ⟨_, exec_sixel_m1_data s c hm hp, s.sixelDataM1_spec c⟩

/-- Settles O17: state Compression is the clear and a run of the repeat count. -/
theorem sixelInM1Compression : Obligations.SixelInM1Compression := by
  intro c s n hm hp hn
  subst hn
  exact ⟨_, exec_sixel_m1_run s c hm hp, s.sixelRunM1_spec c⟩

/-- Settles O27: 0 clears the first chunk of the next band and goes on, anything else ends the DECODE. -/
theorem answerToABandInM1 : Obligations.AnswerToABandInM1 := by
  intro v s hb hp hm hw
  have hexec := exec_answer_of_waitBand_m1 hp hm v
  refine ⟨fun hv => ⟨_, hexec, ?_⟩, fun hv => ⟨_, hexec, ?_⟩⟩
  · obtain ⟨m, hline, hread, -, -⟩ := s.resume.resetLineM1_spec hw hb.1.2
    rw [hv, s.answerBandM1_zero, hline]
    exact ⟨rfl, State.painted_of_read rfl hread⟩
  · rw [s.answerBandM1_of_ne_zero hv]
    rfl

/-- Settles O58: DASH leaves the rows as they are, and the invariant has them written up to the frontier of the clear
in M1 and up to the width of the band in M2. -/
theorem bandPayloadIsWritten : Obligations.BandPayloadIsWritten := by
  intro s hinv hi hm
  have hregs := hinv.regs hi
  cases hmode : s.mode with
  | undecided => exact absurd hmode hm
  | m1 =>
    have hband := hregs.bandM1_le hmode
    exact ⟨_, _, exec_dash_of_m1 hmode, rfl, rfl, hband.trans hregs.clearedWidth.2,
      (hregs.writtenM1 hmode).payload hband⟩
  | m2 =>
    obtain ⟨hlow, hcap⟩ := hregs.widthM2 hmode
    have hband : 4 + (s.width - 4) ≤ s.width := by omega
    exact ⟨_, _, exec_dash_of_m2 hmode, rfl, rfl, hband.trans hcap, (hregs.writtenM2 hmode).payload hband⟩

/-- Settles O21: outside state Color the two bytes only open their list. -/
theorem bangAndHashOpenAList : Obligations.BangAndHashOpenAList := exec_bang_hash

/-- Settles O25, by the mode. -/
theorem dollarReturnsTheCursor : Obligations.DollarReturnsTheCursor :=
  fun _ => ⟨exec_dollar_of_m1, exec_dollar_of_m2⟩

/-- Settles O26, by the mode. -/
theorem dashRaisesTheBandCallback : Obligations.DashRaisesTheBandCallback := by
  intro s w hw
  subst hw
  exact ⟨exec_dash_of_m1, exec_dash_of_m2⟩

end Sys2Proof.Machine
end

section
/-! SUPPORT. Mode M2 (46_mode_m2.md), apart from the rules it shares with M1: the sixel that paints without a clear, and
the answer to BAND; and the settled statements. -/

namespace Sys2Proof.Machine

variable {s : State}

/-! SIXEL: the paint alone (R128, R129) -/

/-- SIXEL in state Data (R128): what it changes, and every byte of the row buffers. -/
theorem State.sixelDataM2_spec (s : State) (c : BitVec 6) :
    s.sixelDataM2 c = { s with
      rowbuf := (s.sixelDataM2 c).rowbuf, cursor := min (s.cursor + 1) s.build.maxWidth, pos := s.pos + 1 } ∧
    s.painted (s.sixelDataM2 c) c s.cursor (if s.cursor < s.build.maxWidth then 1 else 0) s.color :=
  ⟨congrArg (fun u : State => (u.advanceCursor 1).advance) (s.putSingle_only c s.color s.cursor),
    s.putSingle_painted c s.color s.cursor⟩

/-- SIXEL in state Compression (R129): what it changes, and every byte of the row buffers. -/
theorem State.sixelRunM2_spec (s : State) (c : BitVec 6) :
    s.sixelRunM2 c = { s with
      rowbuf := (s.sixelRunM2 c).rowbuf, cursor := min (s.cursor + s.repeatCount) s.build.maxWidth
      parser := .data, pos := s.pos + 1 } ∧
    s.painted (s.sixelRunM2 c) c s.cursor (s.runLength s.repeatCount s.cursor) s.color :=
  ⟨congrArg (fun u : State => { u.advanceCursor s.repeatCount with parser := .data }.advance)
      (s.putRun_only c s.color s.repeatCount s.cursor),
    s.putRun_painted c s.color s.repeatCount s.cursor⟩

/-! The answer to BAND in M2 (R134, R144, R166) -/

theorem exec_answer_of_waitBand_m2 (hp : s.phase = .waitBand) (hm : s.mode = .m2) (v : Word) :
    exec (.answer v) s = s.answerBandM2 v := by
  simp only [exec, execAnswer, hp, hm]

/-- A band whose width fits the row buffers is cleared for the next one (R140), so that the model does not stop
(log 14). -/
theorem State.answerBandM2_zero (hw : s.width ≤ s.build.rowCap) :
    s.answerBandM2 0 = .next { s.resume.resetLineM2 with cursor := 4 }.advance := if_pos hw

theorem State.answerBandM2_of_ne_zero (s : State) {v : Word} (hv : v ≠ 0) :
    s.answerBandM2 v = .next { s.resume with abort := true, cursor := 4 }.complete := if_pos (decide_eq_true hv)

/-- `reset_line_m2` fills the slots `4..width-1` of all rows (R140). -/
theorem State.resetLineM2_fills (s : State) :
    ∃ m, s.resetLineM2 = { s with rowbuf := m } ∧
      ∀ x, (inRun s.build 63 4 (s.width - 4) x → m.read? x = some (s.fillColor.byte (x % 4))) ∧
        (¬ inRun s.build 63 4 (s.width - 4) x → m.read? x = s.rowbuf.read? x) := by
  obtain ⟨m, hline, hread, -, -⟩ := s.paintRows_spec 63 4 (s.width - 4) s.fillColor
  exact ⟨m, hline, hread⟩

/-! The settled statements -/

/-- Settles O18: state Data is one column. -/
theorem sixelInM2Data : Obligations.SixelInM2Data :=
  fun c s hm hp => ⟨_, exec_sixel_m2_data s c hm hp, s.sixelDataM2_spec c⟩

/-- Settles O19: state Compression is a run of the repeat count. -/
theorem sixelInM2Compression : Obligations.SixelInM2Compression := by
  intro c s n hm hp hn
  subst hn
  exact ⟨_, exec_sixel_m2_run s c hm hp, s.sixelRunM2_spec c⟩

/-- Settles O28: 0 clears the width of the band and goes on, anything else ends the DECODE. The lower bound of the
width (R33) is not needed: a narrower band has no slot to clear. -/
theorem answerToABandInM2 : Obligations.AnswerToABandInM2 := by
  intro v s hp hm _ hcap
  have hexec := exec_answer_of_waitBand_m2 hp hm v
  refine ⟨?_, fun hv => ⟨_, hexec.trans (s.answerBandM2_of_ne_zero hv), rfl⟩⟩
  rintro rfl
  obtain ⟨m, hline, hread⟩ := s.resume.resetLineM2_fills
  rw [State.answerBandM2_zero hcap, hline] at hexec
  exact ⟨_, hexec, rfl, State.painted_of_read rfl hread⟩

end Sys2Proof.Machine
end

section
/-! SUPPORT. The host's commands INIT, DECODE and CURRENT_WIDTH (R147 to R150): when each is admitted and when refused,
what an admitted one leaves; and the settled statements, with the one about `clear_upto` of the band controller. -/

namespace Sys2Proof.Machine

variable {s : State}

/-! Refusals -/

/-- A record that stands in `fault` is not added again (R167). -/
theorem State.refuse_of_mem {c : FaultCode} {x : Transaction} (h : ⟨c, x⟩ ∈ s.fault) : s.refuse c x = s := by
  rw [State.refuse, if_pos h]

/-- The second of two equal refusals changes nothing. -/
theorem State.refuse_refuse (s : State) (c : FaultCode) (x : Transaction) :
    (s.refuse c x).refuse c x = s.refuse c x :=
  State.refuse_of_mem (((s.refuse_into c x).2 _).2 (.inr rfl))

/-! INIT (R148, R149) -/

section Init

variable {c f p u : Word}

theorem exec_init_of_idle (hp : s.phase = .idle) :
    exec (.init c f p u) s = .next (s.initialise c f p u) := if_pos hp

theorem exec_init_of_busy (hp : s.phase ≠ .idle) :
    exec (.init c f p u) s = .next (s.refuse .busy (.known (.init c f p u))) := if_neg hp

/-- An INIT leaves no trace of the registers it writes, so that a second one changes nothing (R149). -/
theorem State.initialise_initialise (s : State) (c f p u : Word) :
    (s.initialise c f p u).initialise c f p u = s.initialise c f p u :=
  congrArg (fun ps : List Word => { s.initialise c f p u with params := ps }) (List.set_set _)

end Init

/-! DECODE (R150) -/

section Decode

variable {a e : Word}

theorem State.rangeOk_iff : s.rangeOk a e = true ↔
    0 ≤ a.toInt ∧ a.toInt ≤ e.toInt ∧ e.toInt ≤ (s.build.chunkSize : Int) - 1 := by
  simp only [State.rangeOk, Bool.and_eq_true, decide_eq_true_eq, and_assoc]

theorem exec_decode_of_notInited (hi : s.inited = false) :
    exec (.decode a e) s = .next (s.refuse .notInited (.known (.decode a e))) := if_pos hi

theorem exec_decode_of_busy (hi : s.inited = true) (hp : s.phase ≠ .idle) :
    exec (.decode a e) s = .next (s.refuse .busy (.known (.decode a e))) :=
  (if_neg (ne_false_of_eq_true hi)).trans (if_pos hp)

theorem exec_decode_of_badRange (hi : s.inited = true) (hp : s.phase = .idle) (hr : s.rangeOk a e = false) :
    exec (.decode a e) s = .next (s.refuse .badRange (.known (.decode a e))) :=
  (if_neg (ne_false_of_eq_true hi)).trans ((if_neg (not_not.2 hp)).trans (if_pos hr))

/-- A DECODE in its range runs, or completes at once after an abort (R166). -/
theorem exec_decode_of_admitted (hi : s.inited = true) (hp : s.phase = .idle) (hr : s.rangeOk a e = true) :
    exec (.decode a e) s = if s.abort then .next s.complete else .next (s.startDecode a e) :=
  (if_neg (ne_false_of_eq_true hi)).trans ((if_neg (not_not.2 hp)).trans (if_neg (ne_false_of_eq_true hr)))

/-- The sentinel is written at `end`, and every other byte of INBUF stays (R150). -/
theorem State.byteAt_startDecode (s : State) (a e : Word) (x : Nat) :
    (s.startDecode a e).byteAt .inbuf x = if x = e.toNat then 0xFF else s.byteAt .inbuf x := by
  have hwrite : (s.startDecode a e).byteAt .inbuf x = (s.writeBytes .inbuf e.toNat [0xFF]).byteAt .inbuf x := rfl
  rw [hwrite]
  by_cases hx : x = e.toNat
  · rw [if_pos hx, State.byteAt_writeBytes_of_getElem? s (ge_of_eq hx) (by rw [hx, Nat.sub_self]; rfl)]
  · rw [if_neg hx, State.byteAt_writeBytes, dif_neg (by rw [List.length_singleton]; omega)]

end Decode

/-! CURRENT_WIDTH (R147) -/

theorem exec_currentWidth_of_notInited (hi : s.inited = false) :
    exec .currentWidth s = .next (s.refuse .notInited (.known .currentWidth)) := if_pos hi

theorem exec_currentWidth_of_run (hi : s.inited = true) (hp : s.phase = .run) :
    exec .currentWidth s = .next (s.refuse .busy (.known .currentWidth)) :=
  (if_neg (ne_false_of_eq_true hi)).trans (if_pos hp)

theorem exec_currentWidth_of_admitted (hi : s.inited = true) (hp : s.phase ≠ .run) :
    exec .currentWidth s = .next s.reportWidth :=
  (if_neg (ne_false_of_eq_true hi)).trans (if_neg hp)

/-- In M1 the band is as wide as the cursor has been, and that is noted in `real_width` (R142, R147). -/
theorem State.reportWidth_of_m1 (hm : s.mode = .m1) : s.reportWidth =
    s.updateRealWidth.send
      (.width (BitVec.ofNat 32 (min (max s.updateRealWidth.realWidth 4) s.build.maxWidth - 4))) := by
  rw [State.reportWidth, hm]
  rfl

theorem State.reportWidth_of_m2 (hm : s.mode = .m2) :
    s.reportWidth = s.send (.width (BitVec.ofNat 32 (s.width - 4))) := by
  rw [State.reportWidth, hm]

theorem State.reportWidth_of_undecided (hm : s.mode = .undecided) : s.reportWidth = s.send (.width 0) := by
  rw [State.reportWidth, hm]

/-! The settled statements -/

/-- Settles O30: in IDLE the effect is `initialise`, in every other phase a refusal. -/
theorem initSetsTheRegisters : Obligations.InitSetsTheRegisters :=
  fun _ _ _ _ s => ⟨exec_init_of_idle, fun hp => ⟨_, exec_init_of_busy hp, s.refuse_into _ _⟩⟩

/-- Settles O31: both the admitted and the refused INIT do nothing the second time. -/
theorem initTwiceIsInitOnce : Obligations.InitTwiceIsInitOnce := by
  intro c f p u s
  by_cases hp : s.phase = .idle
  · refine ⟨s.initialise c f p u, exec_init_of_idle hp, ?_⟩
    exact (exec_init_of_idle (s := s.initialise c f p u) hp).trans (congrArg _ (s.initialise_initialise c f p u))
  · refine ⟨s.refuse .busy (.known (.init c f p u)), exec_init_of_busy hp, ?_⟩
    exact (exec_init_of_busy (s := s.refuse _ _) hp).trans (congrArg _ (s.refuse_refuse _ _))

/-- Settles O32, one admission lemma for each clause; the range that started is that of the unsigned operands. -/
theorem decodeFollowsItsRule : Obligations.DecodeFollowsItsRule := by
  intro a e s
  refine ⟨fun hi => ?_, fun hi hp => ?_, fun hi hp hr => ?_, fun hi hp h0 hle hc ha => ?_,
    fun hi hp h0 hle hc ha => ?_⟩
  · exact ⟨_, exec_decode_of_notInited hi, s.refuse_into _ _⟩
  · exact ⟨_, exec_decode_of_busy hi hp, s.refuse_into _ _⟩
  · have hbad : s.rangeOk a e = false := Bool.eq_false_of_not_eq_true fun h => hr (State.rangeOk_iff.1 h)
    exact ⟨_, exec_decode_of_badRange hi hp hbad, s.refuse_into _ _⟩
  · rw [exec_decode_of_admitted hi hp (State.rangeOk_iff.2 ⟨h0, hle, hc⟩), if_pos ha]
    rfl
  · have hstart : a.toInt.toNat = a.toNat := BitVec.toNat_toInt_of_sle (decide_eq_true h0)
    have hend : e.toInt.toNat = e.toNat := BitVec.toNat_toInt_of_sle (decide_eq_true (h0.trans hle))
    rw [exec_decode_of_admitted hi hp (State.rangeOk_iff.2 ⟨h0, hle, hc⟩), if_neg (ne_true_of_eq_false ha), hstart,
      hend]
    refine ⟨_, rfl, rfl, ?_, fun x hx => ?_⟩
    · rw [s.byteAt_startDecode, if_pos rfl]
    · rw [s.byteAt_startDecode, if_neg hx]

/-- Settles O33, by the mode. -/
theorem currentWidthReportsTheBand : Obligations.CurrentWidthReportsTheBand := by
  rintro s w rfl
  refine ⟨fun hi => ⟨_, exec_currentWidth_of_notInited hi, s.refuse_into _ _⟩,
    fun hi hp => ⟨_, exec_currentWidth_of_run hi hp, s.refuse_into _ _⟩, fun hi hp => ?_⟩
  rw [exec_currentWidth_of_admitted hi hp]
  refine ⟨fun hm => ?_, fun hm => ?_, fun hm => ?_⟩
  · rw [State.reportWidth_of_m1 hm]
    rfl
  · rw [State.reportWidth_of_m2 hm]
    rfl
  · rw [State.reportWidth_of_undecided hm]
    rfl

/-- Settles O45: the clear paints the slots from the old frontier to the new one, which stays inside the rows. -/
theorem clearUptoReachesItsLimit : Obligations.ClearUptoReachesItsLimit := by
  rintro s limit t hl hcap rfl
  obtain ⟨hreach, hpaint⟩ := s.clearUpto_painted limit hl
  have hfront : s.clearedWidth + (clearedAfter s.build s.clearedWidth limit - s.clearedWidth) =
      clearedAfter s.build s.clearedWidth limit := Nat.add_sub_cancel' (le_clearedAfter _ _ _ hl)
  have hfits : clearedAfter s.build s.clearedWidth limit ≤ s.build.rowStride := clearedAfter_le _ _ _ hcap
  refine ⟨hreach ▸ s.clearUpto_only limit, hreach ▸ clearedAfter_ge _ _ _ hl, fun r i j hr hi hj => ?_⟩
  have hbyte := hpaint.byteAt_pixel (.inr (hfront.trans_le hfits)) hr hi hj
  rw [hfront, ← hreach] at hbyte
  exact ⟨fun h => hbyte.trans (if_pos ⟨getLsbD_allRows hr, h⟩), fun h => hbyte.trans (if_neg fun h' => h h'.2)⟩

end Sys2Proof.Machine
end

section
/-! SUPPORT. The steps that are no instruction of the stream: the end of a DECODE (R151), the wait (R153), and the
transactions a block takes while it waits for an answer that does not come (R157); and the settled statements. -/

namespace Sys2Proof.Machine

variable {s t : State}

/-! The end of a DECODE and the idle step -/

/-- At `pos = end` the block's move completes the DECODE (R151). -/
theorem step_of_byteTurn_end (ht : s.turn = t.byteTurn) (he : t.pos = t.endPos) : step s = .next t.complete := by
  rw [step, ht, State.byteTurn, if_pos he]

/-- With nothing to do the block waits (R153, log 21). -/
theorem step_of_nothing (hr : s.phase ≠ .run) (hp : s.port = []) : step s = .next s := by
  have hwait : s.turn = .wait := by
    rw [State.turn, hp]
    exact if_neg hr
  rw [step, hwait]

/-! A block that waits for an answer -/

theorem State.notIdle_of_wait (hp : s.phase = .waitMode ∨ s.phase = .waitBand) : s.phase ≠ .idle := by
  rcases hp with h | h <;> rw [h] <;> exact Phase.noConfusion

theorem State.notRun_of_wait (hp : s.phase = .waitMode ∨ s.phase = .waitBand) : s.phase ≠ .run := by
  rcases hp with h | h <;> rw [h] <;> exact Phase.noConfusion

/-- From `s` to `t` at most what was sent, the recorded faults and `real_width` changed. -/
def State.frozenInto (s t : State) : Prop := t = { s with out := t.out, fault := t.fault, realWidth := t.realWidth }

/-- A refused transaction freezes the block (R167). -/
theorem State.frozenInto_refuse (s : State) (c : FaultCode) (x : Transaction) : s.frozenInto (s.refuse c x) := rfl

/-- A CURRENT_WIDTH writes `real_width` at most (R147). -/
theorem State.frozenInto_reportWidth (s : State) : s.frozenInto s.reportWidth := by
  cases hm : s.mode with
  | undecided => rw [State.reportWidth_of_undecided hm]; rfl
  | m1 => rw [State.reportWidth_of_m1 hm]; rfl
  | m2 => rw [State.reportWidth_of_m2 hm]; rfl

/-- While a callback waits, a transaction other than its ANSWER is admitted with a result only, or refused (R155). -/
theorem exec_of_wait (hp : s.phase = .waitMode ∨ s.phase = .waitBand) {w : TxnWord} {i : Instr}
    (hd : decodeCommand w = .ok i) (hi : ∀ v, i ≠ .answer v) : ∃ t, exec i s = .next t ∧ s.frozenInto t := by
  have hidle := State.notIdle_of_wait hp
  have hrun := State.notRun_of_wait hp
  have hrefuse := s.frozenInto_refuse
  rcases decodeCommand_cases hd with ⟨c, f, p, u, rfl⟩ | ⟨a, e, rfl⟩ | rfl | ⟨v, rfl⟩ | ⟨sp, k, rfl⟩ |
    ⟨sp, k, v, rfl⟩
  · exact ⟨_, exec_init_of_busy hidle, hrefuse _ _⟩
  · cases hn : s.inited with
    | false => exact ⟨_, exec_decode_of_notInited hn, hrefuse _ _⟩
    | true => exact ⟨_, exec_decode_of_busy hn hidle, hrefuse _ _⟩
  · cases hn : s.inited with
    | false => exact ⟨_, exec_currentWidth_of_notInited hn, hrefuse _ _⟩
    | true => exact ⟨_, exec_currentWidth_of_admitted hn hrun, s.frozenInto_reportWidth⟩
  · exact absurd rfl (hi v)
  · by_cases hk : s.build.count sp ≤ k.toNat
    · exact ⟨_, exec_hostRead_of_index hrun hk, hrefuse _ _⟩
    · exact ⟨_, exec_hostRead_of_admitted hrun (Nat.lt_of_not_le hk), rfl⟩
  · exact ⟨_, exec_hostWrite_of_busy hidle, hrefuse _ _⟩

/-- A stuck block stays stuck when a transaction is taken and the block is frozen (R157). -/
theorem State.stuck.of_frozenInto {r : Request} {rest : List Request} (h : s.stuck) (hp : s.port = r :: rest)
    (hf : ({ s with port := rest } : State).frozenInto t) : t.stuck := by
  obtain ⟨hphase, hport⟩ := h
  rw [hf]
  exact ⟨hphase, fun q hq => hport q (hp ▸ List.mem_cons_of_mem r hq)⟩

/-! The settled statements -/

/-- Settles O8: the turn is the block's for each of the three ports, and a wait outside RUN. -/
theorem stepCompletesOrWaits : Obligations.StepCompletesOrWaits := by
  refine fun s => ⟨fun hr he => ⟨fun hp => ?_, fun w rest hp => ?_, fun n w rest hp => ?_⟩, step_of_nothing⟩
  · exact step_of_byteTurn_end (State.turn_run_nil hr hp) he
  · exact step_of_byteTurn_end (State.turn_run_synchronous hr hp) he
  · exact step_of_byteTurn_end (State.turn_run_afterBytes hr hp) he

/-- Settles O59: the step takes the first pending transaction, which is no ANSWER, or waits. -/
theorem stuckStatesStayStuck : Obligations.StuckStatesStayStuck := by
  intro s h
  have hrun := State.notRun_of_wait h.1
  cases hp : s.port with
  | nil => exact ⟨s, step_of_nothing hrun hp, h, rfl⟩
  | cons r rest =>
    have ht := State.turn_of_host hp (.inl hrun)
    obtain ⟨t, hstep, hf⟩ : ∃ t, step s = .next t ∧ ({ s with port := rest } : State).frozenInto t := by
      cases hd : decodeCommand r.word with
      | ok i =>
        have hi : ∀ v, i ≠ .answer v := fun v hv => h.2 r (hp ▸ List.mem_cons_self) v (hv ▸ hd)
        rw [step_of_hostTurn_ok ht hd]
        exact exec_of_wait (s := { s with port := rest }) h.1 hd hi
      | error e => exact ⟨_, step_of_hostTurn_error ht hd, State.frozenInto_refuse _ _ _⟩
    refine ⟨t, hstep, h.of_frozenInto hp hf, ?_⟩
    rw [hf]

end Sys2Proof.Machine
end

section
/-! SUPPORT. The byte rules read no position (R151, R158): every operation of a byte rule commutes with laying the stream
elsewhere, that is with giving `pos`, `end` and INBUF other values; and the settled statement. -/

namespace Sys2Proof.Machine

/-- The state with its stream laid elsewhere: another position, another end, other bytes in INBUF. -/
def State.laid (s : State) (p e : Nat) (m : Mem) : State := { s with pos := p, endPos := e, inbuf := m }

/-- An operation does the same wherever the stream is laid, and moves `pos` by `k`. -/
def Moves (k : Nat) (g : State → State) : Prop := ∀ s p e m, g (s.laid p e m) = (g s).laid (p + k) e m

section Movement

variable {k n : Nat} {f g : State → State}

/-- The stream already lies where it lies: the state after the operation is its own laid form. -/
theorem Moves.self_eq (h : Moves k g) (s : State) : g s = (g s).laid (s.pos + k) s.endPos s.inbuf :=
  h s s.pos s.endPos s.inbuf

theorem Moves.pos_eq (h : Moves k g) (s : State) : (g s).pos = s.pos + k := by rw [h.self_eq s]; rfl

theorem Moves.endPos_eq (h : Moves k g) (s : State) : (g s).endPos = s.endPos := by rw [h.self_eq s]; rfl

theorem Moves.comp (hg : Moves n g) (hf : Moves k f) : Moves (k + n) fun s => g (f s) := by
  intro s p e m
  simp only [hf s p e m, hg (f s) (p + k) e m, Nat.add_assoc]

theorem moves_advance : Moves 1 State.advance := fun _ _ _ _ => rfl

/-- The end of a byte rule moves `pos` by one. -/
theorem Moves.advance (h : Moves 0 g) : Moves 1 fun s => (g s).advance := moves_advance.comp h

end Movement

/-! The kernels and the clears write the row buffers only, and read there nothing but the build -/

section Kernels

variable (s : State) (p e : Nat) (m : Mem)

theorem State.laid_paintRows (c : BitVec 6) (lo n : Nat) (w : Word) :
    (s.laid p e m).paintRows c lo n w = (s.paintRows c lo n w).laid p e m := by
  refine List.foldl_hom (fun t : State => t.laid p e m) fun t r => ?_
  split <;> rfl

theorem State.laid_putSingle (c : BitVec 6) (w : Word) (col : Nat) :
    (s.laid p e m).putSingle c w col = (s.putSingle c w col).laid p e m := by
  have hpaint := s.laid_paintRows p e m c col 1 w
  simp only [State.putSingle, hpaint]
  exact (apply_ite (fun t : State => t.laid p e m) _ _ _).symm

theorem State.laid_putRun (c : BitVec 6) (w : Word) (n col : Nat) :
    (s.laid p e m).putRun c w n col = (s.putRun c w n col).laid p e m := s.laid_paintRows p e m c col _ w

theorem State.laid_fillRowRange (lo hi : Nat) :
    (s.laid p e m).fillRowRange lo hi = (s.fillRowRange lo hi).laid p e m := s.laid_paintRows p e m 63 lo _ _

theorem State.laid_clearChunk : (s.laid p e m).clearChunk = s.clearChunk.laid p e m :=
  congrArg (fun t : State => { t with clearedWidth := min (s.clearedWidth + 128) s.build.rowCap })
    (s.laid_fillRowRange p e m _ _)

theorem State.laid_clearLoop (limit fuel : Nat) (s : State) :
    State.clearLoop limit fuel (s.laid p e m) = (State.clearLoop limit fuel s).laid p e m := by
  induction fuel generalizing s with
  | zero => rfl
  | succ fuel ih =>
    rw [State.clearLoop, State.clearLoop, s.laid_clearChunk, ih]
    exact (apply_ite (fun t : State => t.laid p e m) _ _ _).symm

theorem State.laid_clearUpto (limit : Nat) : (s.laid p e m).clearUpto limit = (s.clearUpto limit).laid p e m :=
  State.laid_clearLoop p e m limit limit s

end Kernels

/-! The commit, the color resolution and the sixels -/

theorem moves_resetLine : Moves 0 State.resetLine := by
  intro s p e m
  have h1 : (s.laid p e m).resetLineM1 = s.resetLineM1.laid p e m :=
    congrArg (fun t : State => { t with clearedWidth := s.resetLineM1.clearedWidth }) (s.laid_fillRowRange p e m 4 _)
  have h2 : (s.laid p e m).resetLineM2 = s.resetLineM2.laid p e m := s.laid_fillRowRange p e m 4 _
  simp only [State.resetLine, h1, h2]
  exact (apply_ite (fun t : State => t.laid p e m) _ _ _).symm

theorem moves_commitCommon : Moves 0 State.commitCommon := fun s p e m =>
  congrArg (fun t : State => t.raiseMode s.mode) (moves_resetLine s.backToData p e m)

theorem moves_resolveColor : Moves 0 State.resolveColor := by
  intro s p e m
  by_cases h1 : s.pLength = 1
  · rw [State.resolveColor_of_select h1, State.resolveColor_of_select (s := s.laid p e m) h1]
    rfl
  · cases ha : s.isAssign with
    | true =>
      rw [State.resolveColor_of_isAssign ha, State.resolveColor_of_isAssign (s := s.laid p e m) ha]
      rfl
    | false =>
      rw [State.resolveColor_of_rejected h1 ha, State.resolveColor_of_rejected (s := s.laid p e m) h1 ha]
      rfl

theorem moves_sixelDataM1 (c : BitVec 6) : Moves 1 fun s => s.sixelDataM1 c := by
  intro s p e m
  have hclear := s.laid_clearUpto p e m (min (s.cursor + 1) s.build.maxWidth)
  have hpaint := (s.clearUpto (min (s.cursor + 1) s.build.maxWidth)).laid_putSingle p e m c s.color s.cursor
  exact congrArg (fun t : State => (t.advanceCursor 1).advance)
    ((congrArg (fun t : State => t.putSingle c s.color s.cursor) hclear).trans hpaint)

theorem moves_sixelRunM1 (c : BitVec 6) : Moves 1 fun s => s.sixelRunM1 c := by
  intro s p e m
  have hclear := s.laid_clearUpto p e m (min (s.cursor + s.repeatCount) s.build.maxWidth)
  have hpaint :=
    (s.clearUpto (min (s.cursor + s.repeatCount) s.build.maxWidth)).laid_putRun p e m c s.color s.repeatCount s.cursor
  exact congrArg (fun t : State => { t.advanceCursor s.repeatCount with parser := .data }.advance)
    ((congrArg (fun t : State => t.putRun c s.color s.repeatCount s.cursor) hclear).trans hpaint)

theorem moves_sixelDataM2 (c : BitVec 6) : Moves 1 fun s => s.sixelDataM2 c := fun s p e m =>
  congrArg (fun t : State => (t.advanceCursor 1).advance) (s.laid_putSingle p e m c s.color s.cursor)

theorem moves_sixelRunM2 (c : BitVec 6) : Moves 1 fun s => s.sixelRunM2 c := fun s p e m =>
  congrArg (fun t : State => { t.advanceCursor s.repeatCount with parser := .data }.advance)
    (s.laid_putRun p e m c s.color s.repeatCount s.cursor)

/-- The sixel that ends a color introducer is the one of state Data (R116, R130). -/
theorem Moves.fromData {g : State → State} (h : Moves 1 g) : Moves 1 fun s => g { s with parser := .data } :=
  fun s => h { s with parser := .data }

theorem moves_openParam : Moves 0 State.openParam := by
  intro s p e m
  by_cases hroom : s.pLength < s.build.paramSize
  · rw [State.openParam_of_lt hroom, State.openParam_of_lt (s := s.laid p e m) hroom]
    rfl
  · rw [State.openParam_of_ge (Nat.le_of_not_lt hroom),
      State.openParam_of_ge (s := s.laid p e m) (Nat.le_of_not_lt hroom)]
    rfl

theorem moves_openList (q : ParserState) : Moves 1 fun s => s.openList q := fun _ _ _ _ => rfl

/-! The meaning of a byte, laid elsewhere -/

variable {i : Instr} {s t u : State}

/-- An instruction takes `s` to `t` wherever the stream is laid, and moves `pos` by one or not at all. -/
def LaidAnywhere (i : Instr) (s t : State) : Prop :=
  ∃ k, k ≤ 1 ∧ ∀ p e m, exec i (s.laid p e m) = .next (t.laid (p + k) e m)

theorem Moves.laidAnywhere {k : Nat} {g : State → State} (hg : Moves k g) (hk : k ≤ 1)
    (h : ∀ p e m, exec i (s.laid p e m) = .next (g (u.laid p e m))) : LaidAnywhere i s (g u) :=
  ⟨k, hk, fun p e m => (h p e m).trans (congrArg _ (hg u p e m))⟩

/-- The commit goes by the parser state and the parameters (R104 to R107). -/
theorem State.commit_laidAnywhere (hi : commits i = true) (hm : s.mode = .undecided) (h : s.commit = .next t) :
    LaidAnywhere i s t := by
  have hexec := fun p e m => exec_of_commits i (s.laid p e m) hi hm
  rcases State.commit_cases h with ⟨hp, rfl⟩ | ⟨hp, hn, rfl⟩ | ⟨hp, hn, rfl⟩
  · exact moves_commitCommon.laidAnywhere (u := s.commitPlain) (Nat.zero_le 1) fun p e m =>
      (hexec p e m).trans (State.commit_of_data hp)
  · exact moves_commitCommon.laidAnywhere (u := s.commitRaster) (Nat.zero_le 1) fun p e m =>
      (hexec p e m).trans (State.commit_of_raster hp hn)
  · exact moves_commitCommon.laidAnywhere (u := s.commitMalformed) (Nat.zero_le 1) fun p e m =>
      (hexec p e m).trans (State.commit_of_malformed hp hn)

theorem State.resolvesTo.laid (hu : s.resolvesTo u) (p e : Nat) (m : Mem) :
    (s.laid p e m).resolvesTo (u.laid p e m) := by
  rcases hu with ⟨hp, hk, rfl⟩ | ⟨hp, rfl⟩
  · exact .inl ⟨hp, hk, (moves_resolveColor s p e m).symm⟩
  · exact .inr ⟨hp, rfl⟩

/-- BANG and HASH open their list in the state with the introducer ended (R117, R118). -/
theorem exec_bang_hash_of_resolvesTo (hm : s.mode ≠ .undecided) (hu : s.resolvesTo u) :
    exec .bang s = .next (u.openList .compression) ∧ exec .hash s = .next (u.openList .color) := by
  rcases hu with ⟨hp, hk, rfl⟩ | ⟨hp, rfl⟩
  · exact exec_bang_hash_color s hm hp hk
  · exact exec_bang_hash u hm hp

/-- In state Color the resolution has a legal palette. -/
theorem State.resolvesTo.of_color (hu : s.resolvesTo u) (hp : s.parser = .color) :
    s.paletteOk = true ∧ u = s.resolveColor := by
  rcases hu with ⟨-, hk, rfl⟩ | ⟨hne, -⟩
  · exact ⟨hk, rfl⟩
  · exact absurd hp hne

/-- Each byte rule goes by registers that do not move with the stream. -/
theorem ByteEffect.laidAnywhere (he : ByteEffect i s t) (h : exec i s = .next t) : LaidAnywhere i s t := by
  have h1 : 1 ≤ 1 := Nat.le_refl 1
  cases he with
  | digit d => exact ⟨1, h1, fun _ _ _ => rfl⟩
  | semi => exact moves_openParam.advance.laidAnywhere h1 fun p e m => exec_semi_eq (s.laid p e m)
  | ignored => exact ⟨1, h1, fun _ _ _ => rfl⟩
  | quoteOpens hm hp => exact (moves_openList .attr).laidAnywhere h1 fun _ _ _ => exec_quote_opens hm hp
  | quoteSkips hq => exact moves_advance.laidAnywhere h1 fun _ _ _ => exec_quote_skips (imp_iff_not_or.1 hq)
  | commit hi hm => exact State.commit_laidAnywhere hi hm ((exec_of_commits i s hi hm).symm.trans h)
  | bang hm hu =>
    exact (moves_openList _).laidAnywhere h1 fun p e m =>
      (exec_bang_hash_of_resolvesTo (s := s.laid p e m) hm (hu.laid p e m)).1
  | hash hm hu =>
    exact (moves_openList _).laidAnywhere h1 fun p e m =>
      (exec_bang_hash_of_resolvesTo (s := s.laid p e m) hm (hu.laid p e m)).2
  | dollarM1 hm => exact ⟨1, h1, fun _ _ _ => exec_dollar_of_m1 hm⟩
  | dollarM2 hm => exact ⟨1, h1, fun _ _ _ => exec_dollar_of_m2 hm⟩
  | dashM1 hm => exact ⟨0, Nat.zero_le 1, fun _ _ _ => exec_dash_of_m1 hm⟩
  | dashM2 hm => exact ⟨0, Nat.zero_le 1, fun _ _ _ => exec_dash_of_m2 hm⟩
  | sixelDataM1 c hm hp => exact (moves_sixelDataM1 c).laidAnywhere h1 fun _ _ _ => exec_sixel_m1_data _ c hm hp
  | sixelRunM1 c hm hp => exact (moves_sixelRunM1 c).laidAnywhere h1 fun _ _ _ => exec_sixel_m1_run _ c hm hp
  | sixelColorM1 c hm hp hu =>
    refine (moves_sixelDataM1 c).fromData.laidAnywhere h1 fun p e m => ?_
    obtain ⟨hk, hres⟩ := (hu.laid p e m).of_color hp
    rw [hres]
    exact exec_sixel_m1_color c hm hp hk
  | sixelDataM2 c hm hp => exact (moves_sixelDataM2 c).laidAnywhere h1 fun _ _ _ => exec_sixel_m2_data _ c hm hp
  | sixelRunM2 c hm hp => exact (moves_sixelRunM2 c).laidAnywhere h1 fun _ _ _ => exec_sixel_m2_run _ c hm hp
  | sixelColorM2 c hm hp hu =>
    refine (moves_sixelDataM2 c).fromData.laidAnywhere h1 fun p e m => ?_
    obtain ⟨hk, hres⟩ := (hu.laid p e m).of_color hp
    rw [hres]
    exact exec_sixel_m2_color c hm hp hk

/-- A byte of the stream has the effect of a byte. -/
theorem byteEffect_of_decodeByte {b : Byte} (h : exec (decodeByte b) s = .next t) : ByteEffect (decodeByte b) s t := by
  have hclass := (decodeByte_eq_iff b _).1 rfl
  generalize decodeByte b = i at h hclass
  cases hclass with
  | digit => cases h; exact .digit _ s
  | semi => cases h; exact .semi s
  | bang => exact execBang_effect h
  | hash => exact execHash_effect h
  | quote => exact execQuote_effect h
  | dollar => exact execDollar_effect h
  | dash => exact execDash_effect h
  | sixel => exact execSixel_effect h
  | ignored => cases h; exact .ignored s

/-- Settles O57: that `pos` moves and `end` and INBUF stay is the case of the stream laid where it is. -/
theorem byteRulesReadNoPosition : Obligations.ByteRulesReadNoPosition := by
  intro b s t p e m h
  obtain ⟨k, hk, hlaid⟩ := (byteEffect_of_decodeByte h).laidAnywhere h
  have hself : t = t.laid (s.pos + k) s.endPos s.inbuf :=
    Host.Outcome.next.inj (h.symm.trans (hlaid s.pos s.endPos s.inbuf))
  have hstays : t.inbuf = s.inbuf ∧ t.endPos = s.endPos ∧ t.pos = s.pos + k := by
    rw [hself]
    exact ⟨rfl, rfl, rfl⟩
  obtain ⟨hinbuf, hend, hpos⟩ := hstays
  exact ⟨hinbuf, hend, k, hk, hpos, hlaid p e m⟩

end Sys2Proof.Machine
end

section
/-! SUPPORT. Progress of a DECODE (R151, R152): a byte rule leaves its byte behind or waits for the host in a later place
of the same byte, and an answer goes on behind that place or ends the DECODE; and the settled statement. -/

namespace Sys2Proof.Machine

variable {s t u : State}

/-! The measure of what is left -/

/-- Nothing within one byte weighs as much as a byte. -/
theorem State.remaining_lt_of_pos (hlt : s.pos < s.endPos) (hp : t.pos = s.pos + 1) (he : t.endPos = s.endPos) :
    t.remaining < s.remaining := by
  unfold State.remaining
  rw [hp, he]
  split_ifs <;> omega

/-- A rule that moves `pos` by one, in a state with the stream where it was. -/
theorem Moves.remaining_lt {g : State → State} (hg : Moves 1 g) (hlt : s.pos < s.endPos)
    (hu : u.pos = s.pos ∧ u.endPos = s.endPos) : (g u).remaining < s.remaining :=
  State.remaining_lt_of_pos hlt (by rw [hg.pos_eq, hu.1]) (by rw [hg.endPos_eq, hu.2])

/-- A state that stays at its byte has less left if the place within the byte is a later one. -/
theorem State.remaining_lt_of_place {a b : Nat} (hp : t.pos = s.pos) (he : t.endPos = s.endPos)
    (ht : t.remaining = 4 * (t.endPos - t.pos) + a) (hs : s.remaining = 4 * (s.endPos - s.pos) + b) (hab : a < b) :
    t.remaining < s.remaining := by
  rw [ht, hs, hp, he]
  omega

theorem State.remaining_undecided (hp : s.phase = .run) (hm : s.mode = .undecided) :
    s.remaining = 4 * (s.endPos - s.pos) + 3 := by simp [State.remaining, hp, hm]

theorem State.remaining_waitMode (hp : s.phase = .waitMode) : s.remaining = 4 * (s.endPos - s.pos) + 2 := by
  simp [State.remaining, hp]

theorem State.remaining_committed (hp : s.phase = .run) (hm : s.mode ≠ .undecided) :
    s.remaining = 4 * (s.endPos - s.pos) + 1 := by simp [State.remaining, hp, hm]

theorem State.remaining_waitBand (hp : s.phase = .waitBand) : s.remaining = 4 * (s.endPos - s.pos) + 0 := by
  simp [State.remaining, hp]

/-- A committed byte that raises the BAND callback has less left. -/
theorem State.remaining_lt_of_band (hr : s.phase = .run) (hm : s.mode ≠ .undecided) (hp : t.pos = s.pos)
    (he : t.endPos = s.endPos) (hw : t.phase = .waitBand) : t.remaining < s.remaining :=
  State.remaining_lt_of_place hp he (State.remaining_waitBand hw) (State.remaining_committed hr hm) Nat.zero_lt_one

/-! The bytes -/

theorem State.resolvesTo.place (hu : s.resolvesTo u) : u.pos = s.pos ∧ u.endPos = s.endPos := by
  rcases hu with ⟨-, -, rfl⟩ | ⟨-, rfl⟩
  · exact ⟨s.resolveColor_pos, s.resolveColor_endPos⟩
  · exact ⟨rfl, rfl⟩

theorem State.commitsTo.place (hu : s.commitsTo u) : u.pos = s.pos ∧ u.endPos = s.endPos := by
  rw [hu.only]
  exact ⟨rfl, rfl⟩

/-- A byte rule goes on to the next byte, or from the undecided to the MODE callback, or to the BAND callback. -/
theorem ByteEffect.remaining_lt {i : Instr} (h : ByteEffect i s t) (hs : s.AtByte) : t.remaining < s.remaining := by
  have here : s.pos = s.pos ∧ s.endPos = s.endPos := ⟨rfl, rfl⟩
  cases h with
  | digit d => exact State.remaining_lt_of_pos hs.more rfl rfl
  | semi => exact moves_openParam.advance.remaining_lt hs.more here
  | ignored => exact moves_advance.remaining_lt hs.more here
  | quoteOpens => exact (moves_openList .attr).remaining_lt hs.more here
  | quoteSkips => exact moves_advance.remaining_lt hs.more here
  | @commit _ _ u _ hm hu =>
    obtain ⟨hp, he⟩ := hu.place
    exact State.remaining_lt_of_place ((moves_commitCommon.pos_eq u).trans hp)
      ((moves_commitCommon.endPos_eq u).trans he) (State.remaining_waitMode u.commitCommon_phase)
      (State.remaining_undecided hs.phase hm) (by decide)
  | bang _ hu => exact (moves_openList .compression).remaining_lt hs.more hu.place
  | hash _ hu => exact (moves_openList .color).remaining_lt hs.more hu.place
  | dollarM1 => exact State.remaining_lt_of_pos hs.more rfl rfl
  | dollarM2 => exact State.remaining_lt_of_pos hs.more rfl rfl
  | dashM1 hm => exact State.remaining_lt_of_band hs.phase (ne_undecided_of_m1 hm) rfl rfl rfl
  | dashM2 hm => exact State.remaining_lt_of_band hs.phase (ne_undecided_of_m2 hm) rfl rfl rfl
  | sixelDataM1 c => exact (moves_sixelDataM1 c).remaining_lt hs.more here
  | sixelRunM1 c => exact (moves_sixelRunM1 c).remaining_lt hs.more here
  | sixelColorM1 c _ _ hu => exact (moves_sixelDataM1 c).fromData.remaining_lt hs.more hu.place
  | sixelDataM2 c => exact (moves_sixelDataM2 c).remaining_lt hs.more here
  | sixelRunM2 c => exact (moves_sixelRunM2 c).remaining_lt hs.more here
  | sixelColorM2 c _ _ hu => exact (moves_sixelDataM2 c).fromData.remaining_lt hs.more hu.place

/-- With no transaction due the block moves (log 6). -/
theorem State.turn_of_block (hr : s.phase = .run) (hp : ∀ w, s.port.head? ≠ some ⟨.afterBytes 0, w⟩) :
    ∃ q, s.turn = ({ s with port := q } : State).byteTurn := by
  cases hq : s.port with
  | nil => exact ⟨s.port, State.turn_run_nil hr hq⟩
  | cons r rest =>
    obtain ⟨arrival, w⟩ := r
    cases arrival with
    | synchronous => exact ⟨s.port, State.turn_run_synchronous hr hq⟩
    | afterBytes n =>
      cases n with
      | zero => exact absurd (congrArg List.head? hq) (hp w)
      | succ n => exact ⟨_, State.turn_run_afterBytes hr hq⟩

/-- The block's move in RUN ends the DECODE or leaves less of it. -/
theorem State.Inv.step_progress (h : s.Inv) (hr : s.phase = .run)
    (hp : ∀ w, s.port.head? ≠ some ⟨.afterBytes 0, w⟩) :
    ∃ t, step s = .next t ∧ (t.phase = .idle ∨ t.remaining < s.remaining) := by
  obtain ⟨q, hturn⟩ := State.turn_of_block hr hp
  by_cases hend : s.pos = s.endPos
  · exact ⟨_, step_of_byteTurn_end hturn hend, .inl rfl⟩
  · have hbyte := (h.withPort q).atByte hr hend
    have hin : s.pos < s.build.chunkSize := hbyte.more.trans (hbyte.regs.range hbyte.notIdle).2
    have hstep := step_of_byteTurn hturn hend hin
    obtain ⟨t, hexec⟩ := exec_answersNext (i := decodeByte (s.byteAt .inbuf s.pos)) fun _ => hbyte.regs
    exact ⟨t, hstep.trans hexec, .inr ((byteEffect_of_decodeByte hexec).remaining_lt hbyte)⟩

/-! The answers -/

/-- A MODE answer ends the DECODE or goes on with the committed byte (R108, R109). -/
theorem State.answerMode_progress (hp : s.phase = .waitMode) (hm : s.mode ≠ .undecided) (v : Word) :
    (s.answerMode v).phase = .idle ∨ (s.answerMode v).remaining < s.remaining := by
  unfold State.answerMode
  split
  · exact .inl rfl
  · exact .inr (State.remaining_lt_of_place rfl rfl (State.remaining_committed (s := s.resume) rfl hm)
      (State.remaining_waitMode hp) (by decide))

/-- A BAND answer in M1 ends the DECODE or leaves the byte behind (R120). -/
theorem State.answerBandM1_progress (hlt : s.pos < s.endPos) (v : Word) :
    (s.answerBandM1 v).phase = .idle ∨ (s.answerBandM1 v).remaining < s.remaining := by
  unfold State.answerBandM1
  split
  · exact .inl rfl
  · exact .inr (State.remaining_lt_of_pos hlt (by simp) (by simp))

/-- A BAND answer in M2 ends the DECODE or leaves the byte behind (R134). -/
theorem State.answerBandM2_progress (hlt : s.pos < s.endPos) (hw : s.width ≤ s.build.rowCap) (v : Word) :
    ∃ t, s.answerBandM2 v = .next t ∧ (t.phase = .idle ∨ t.remaining < s.remaining) := by
  by_cases hv : v = 0
  · subst hv
    exact ⟨_, State.answerBandM2_zero hw, .inr (State.remaining_lt_of_pos hlt (by simp) (by simp))⟩
  · exact ⟨_, s.answerBandM2_of_ne_zero hv, .inl rfl⟩

/-- Every answer to an outstanding callback ends the DECODE or leaves less of it. -/
theorem State.Inv.answer_progress (h : s.Inv) (hp : s.phase = .waitMode ∨ s.phase = .waitBand) (v : Word) :
    ∃ t, exec (.answer v) s = .next t ∧ (t.phase = .idle ∨ t.remaining < s.remaining) := by
  have hregs := h.regs_of_busy (State.notIdle_of_wait hp)
  obtain ⟨hm, hlt⟩ := hregs.callback hp
  rcases hp with hp | hp
  · exact ⟨_, exec_answer_of_waitMode hp v, State.answerMode_progress hp hm v⟩
  · cases hmode : s.mode with
    | undecided => exact absurd hmode hm
    | m1 => exact ⟨_, exec_answer_of_waitBand_m1 hp hmode v, State.answerBandM1_progress hlt v⟩
    | m2 =>
      rw [exec_answer_of_waitBand_m2 hp hmode]
      exact State.answerBandM2_progress hlt (hregs.widthM2 hmode).2 v

/-- Settles O56, for the block's move and for the host's answer. -/
theorem everyStepOfADecodeMakesProgress : Obligations.EveryStepOfADecodeMakesProgress :=
  fun _ h => ⟨h.step_progress, h.answer_progress⟩

end Sys2Proof.Machine
end
